-- ==== Sys2Proof/Word.lean ====
section
/-! DEFINITION. The fixed-width words of FSYNC: the 8-bit stream symbol and the 8-bit operation
selector (spec/30_encoding.md R90, R101). Counters are natural numbers (spec/00_scope.md R7). -/

namespace Sys2Proof

/-- One stream symbol, one marker byte, one pixel: 8 bits, all 256 values legal (R11, R90). -/
abbrev Byte := BitVec 8

/-- The operation selector `OPSEL` (R101). -/
abbrev OpSel := BitVec 8

end Sys2Proof
end

