-- ==== Sys2Proof/Config.lean ====
section
/-! DEFINITION. What is fixed while FSYNC runs: the build-time parameters (spec/00_scope.md R7), the
run-time configuration (R6), their defaults, and the one free value of the model (spec/10_state.md
R45). -/

namespace Sys2Proof

/-- The build-time parameters the spec leaves OPEN (R7). `none` is "unbounded". -/
structure Build where
  /-- `MAXL`, the largest marker length the marker store holds. -/
  maxl : Option Nat
  /-- `DIM_BITS`, the width of `WIDTH` and of `HEIGHT`. -/
  dimBits : Option Nat
  /-- `SKIP_CAP`, the capacity of the skipped-byte accumulator in bytes. -/
  skipCap : Option Nat
  /-- `ERR_BITS`, the width of the error sub-code. -/
  errBits : Nat
  deriving DecidableEq, Repr

/-- The defaults of R7 and of the parameter table of spec/92_eei_decisions.md: everything
unbounded, two bits of sub-code. -/
def Build.standard : Build := { maxl := none, dimBits := none, skipCap := none, errBits := 2 }

/-- The run-time configuration `Config = (MARKER, L, WIDTH, HEIGHT)` (R6, spec/10_state.md R32, R34). -/
structure Config where
  /-- `MARKER[0..L-1]`, the first byte that must arrive first (R12, R66). -/
  marker : List Byte
  /-- `L` (`MLEN`), the number of marker bytes. -/
  mlen : Nat
  /-- `WIDTH`. -/
  width : Nat
  /-- `HEIGHT`. -/
  height : Nat
  deriving DecidableEq, Repr

/-- The defaults of R6: the marker `"XXSYNCXX"`, 96 by 96. The byte values are the ASCII codes of
R12 and R91 (PRESUMED there from general knowledge; log entry 13). -/
def Config.standard : Config :=
  { marker := [0x58, 0x58, 0x53, 0x59, 0x4E, 0x43, 0x58, 0x58], mlen := 8, width := 96, height := 96 }

/-- FREE VALUE: the byte seen on `fb_rdata`, or on an unused byte of `log_data`, when the spec gives
it no value ("a draw under no law", R45). The argument numbers the draw. It has no body, so nothing
can be proved of its values (log entry 8). -/
opaque Config.freeByte : Nat → Byte

end Sys2Proof
end

