-- ==== Sys2Proof/Syntax.lean ====
section
/-! DEFINITION. The 14 operations of FSYNC, the fields of the operation selector, and the inputs of a
step: the step record and the stimulus items (spec/30_encoding.md R96, R99 to R103, R110;
spec/00_scope.md R10). -/

namespace Sys2Proof

/-- The operations of the operation map (R103), one constructor per row of spec/opcode_table.json.
No operation has written operands (R109): its data come with the step input (R101). -/
inductive Instr where
  | reset
  | scanMatch
  | scanMiss
  | scanDone
  | scanFail
  | waitScan
  | readStore
  | readDone
  | readFail
  | waitRead
  | pipeShow
  | waitShow
  | pipeSkip
  | halt
  deriving DecidableEq, Repr

/-- The five legal values of the `PHASE` register (R26). The reserved codes `101`, `110`, `111` are
not states, as R105 allows (log entry 14). -/
inductive Phase where
  | syncing
  | reading
  | display
  | skip
  | failed
  deriving DecidableEq, Repr

/-- The input event class `EV` (R99). -/
inductive Ev where
  | none
  | byte
  | err
  | ack
  deriving DecidableEq, Repr

/-- The fields of the operation selector, most significant first (R101). -/
structure Selector where
  rst : Bool
  phase : Phase
  ev : Ev
  eq : Bool
  tc : Bool
  deriving DecidableEq, Repr

/-- One answer of the Byte Source to a read request: `byte(b)`, or `err(c)` with the sub-code `c`
(R10, R96). -/
inductive Answer where
  | byte (b : Byte)
  | err (c : Nat)
  deriving DecidableEq, Repr

/-- The input of one step, `In = (rst, src, ack)` (R10). `src = none` is "no answer yet".
`cfg` carries the static configuration buses of R42: `none` when they show what they showed before,
`some c` when they show `c` in this step (log entry 3). -/
structure In where
  rst : Bool := false
  src : Option Answer := none
  ack : Bool := false
  cfg : Option Config := none
  deriving DecidableEq, Repr

/-- One item of a stimulus program (R110). -/
inductive Item where
  /-- `B xx` or `E c`: the Byte Source answers the next read request so. -/
  | answer (a : Answer)
  /-- `A`: the Display Sink acknowledges in the next step in which `PHASE = DISPLAY`. -/
  | ack
  /-- `I k`: `k` steps in which the environment offers nothing. -/
  | idle (k : Nat)
  /-- `R`: one step with `rst = 1`. -/
  | reset
  deriving DecidableEq, Repr

end Sys2Proof
end

