-- ==== Sys2Proof/WellFormed.lean ====
section
/-! DEFINITION. Which parameters, configurations and inputs the spec gives a meaning to
(spec/00_scope.md R6, R7, R10; spec/30_encoding.md R107). An operation has no operands, so every
`Instr` is well formed. -/

namespace Sys2Proof

/-- `n` is at most an optional bound; `none` is unbounded (R7). -/
def atMost (n : Nat) : Option Nat → Bool
  | none => true
  | some m => decide (n ≤ m)

/-- `n` fits in an optional number of bits; `none` is unbounded (R7). -/
def fitsBits (n : Nat) : Option Nat → Bool
  | none => true
  | some d => decide (n < 2 ^ d)

/-- An optional parameter is at least `lo` where it is bounded (R7's column "constraint"). -/
def atLeast (lo : Nat) : Option Nat → Bool
  | none => true
  | some m => decide (lo ≤ m)

/-- The constraints of R7: `MAXL >= 1`, `DIM_BITS >= 1`, `SKIP_CAP >= 1`, `ERR_BITS >= 2`. -/
def Build.wf (p : Build) : Bool :=
  atLeast 1 p.maxl && atLeast 1 p.dimBits && atLeast 1 p.skipCap && decide (2 ≤ p.errBits)

/-- Legal configurations (R6, R107): `1 <= L <= MAXL`, `MARKER` has `L` bytes, `WIDTH` and `HEIGHT`
fit in `DIM_BITS` bits. Zero width or height is legal. -/
def Config.wf (p : Build) (c : Config) : Bool :=
  decide (1 ≤ c.mlen) && decide (c.marker.length = c.mlen) && atMost c.mlen p.maxl &&
    fitsBits c.width p.dimBits && fitsBits c.height p.dimBits

/-- An answer the interface can carry: the sub-code is an `ERR_BITS`-bit value (R10, R96). -/
def Answer.wf (p : Build) : Answer → Bool
  | .byte _ => true
  | .err c => decide (c < 2 ^ p.errBits)

/-- A stimulus item the interface can carry (R110). -/
def Item.wf (p : Build) : Item → Bool
  | .answer a => a.wf p
  | .ack => true
  | .idle _ => true
  | .reset => true

end Sys2Proof
end

