-- ==== Sys2Proof/Decode.lean ====
section
/-! DEFINITION. The operation selector: its fields, the operation map, the decoder (total on any
bytes, rejecting by name) and the encoder (spec/30_encoding.md R99 to R105, spec/10_state.md R26). -/

namespace Sys2Proof

/-- The 3-bit code of a phase (R26). -/
def Phase.code : Phase → BitVec 3
  | .syncing => 0b000
  | .reading => 0b001
  | .display => 0b010
  | .skip => 0b011
  | .failed => 0b100

/-- The phase a code stands for; the reserved codes `101`, `110`, `111` stand for none (R26). -/
def Phase.ofCode (c : BitVec 3) : Option Phase :=
  if c = 0b000 then some .syncing
  else if c = 0b001 then some .reading
  else if c = 0b010 then some .display
  else if c = 0b011 then some .skip
  else if c = 0b100 then some .failed
  else none

/-- The 2-bit code of an input event class (R99). -/
def Ev.code : Ev → BitVec 2
  | .none => 0b00
  | .byte => 0b01
  | .err => 0b10
  | .ack => 0b11

/-- The event class a code stands for (R99). -/
def Ev.ofCode (c : BitVec 2) : Ev :=
  if c = 0b00 then .none else if c = 0b01 then .byte else if c = 0b10 then .err else .ack

/-- `OPSEL = {RST, PHASE[2:0], EV[1:0], EQ, TC}` (R101). -/
def Selector.bits (f : Selector) : OpSel :=
  BitVec.ofBool f.rst ++ f.phase.code ++ f.ev.code ++ BitVec.ofBool f.eq ++ BitVec.ofBool f.tc

/-- The fields of a raw selector value; none where its `PHASE` field is a reserved code (R101). -/
def Selector.ofBits (w : OpSel) : Option Selector :=
  (Phase.ofCode (w.extractLsb' 4 3)).map fun p =>
    { rst := w.getLsbD 7, phase := p, ev := Ev.ofCode (w.extractLsb' 2 2),
      eq := w.getLsbD 1, tc := w.getLsbD 0 }

/-- One row of the operation map. -/
structure OpRow where
  instr : Instr
  pattern : OpSel
  mask : OpSel
  canonical : OpSel
  deriving DecidableEq, Repr

/-- The operation map (R103): match, mask and canonical value of every operation. `RESET` has a
range of canonical values; the one listed has every other bit 0. -/
def opMap : List OpRow :=
  [ ⟨.reset, 0x80, 0x80, 0x80⟩,
    ⟨.scanMatch, 0x06, 0xFF, 0x06⟩,
    ⟨.scanMiss, 0x04, 0xFF, 0x04⟩,
    ⟨.scanDone, 0x01, 0xF1, 0x01⟩,
    ⟨.scanFail, 0x08, 0xFD, 0x08⟩,
    ⟨.waitScan, 0x00, 0xFD, 0x00⟩,
    ⟨.readStore, 0x14, 0xFD, 0x14⟩,
    ⟨.readDone, 0x11, 0xF1, 0x11⟩,
    ⟨.readFail, 0x18, 0xFD, 0x18⟩,
    ⟨.waitRead, 0x10, 0xFD, 0x10⟩,
    ⟨.pipeShow, 0x2C, 0xFC, 0x2C⟩,
    ⟨.waitShow, 0x20, 0xFC, 0x20⟩,
    ⟨.pipeSkip, 0x30, 0xF0, 0x30⟩,
    ⟨.halt, 0x40, 0xF0, 0x40⟩ ]

/-- A row matches a selector value when `(OPSEL and mask) = match` (R102). -/
def OpRow.matches (r : OpRow) (w : OpSel) : Bool := (w &&& r.mask) == r.pattern

/-- The decoding procedure (R102): the operation of the row that matches; none for a reserved
selector value (R105). -/
def decodeSel (w : OpSel) : Option Instr := (opMap.find? fun r => r.matches w).map fun r => r.instr

/-- Why a byte string is not an operation. -/
inductive DecodeError where
  /-- There is no byte to decode. -/
  | truncated
  /-- The selector value is one of the 60 reserved ones (R105). -/
  | reservedSelector
  deriving DecidableEq, Repr

/-- The decoder on bytes: one byte selects one operation (R101, R108); the rest is returned. -/
def decode : List Byte → Except DecodeError (Instr × List Byte)
  | [] => .error .truncated
  | w :: rest =>
    match decodeSel w with
    | some i => .ok (i, rest)
    | none => .error .reservedSelector

/-- `n` bytes of the number `w`, the least significant byte first. -/
def layBytes : Nat → Nat → List Byte
  | 0, _ => []
  | n + 1, w => BitVec.ofNat 8 w :: layBytes n (w / 256)

/-- The operation the decoder reads from a word of the opcode table, which gives every row one
byte (R108). -/
def decodeTableWord (nbits w : Nat) : Option Instr :=
  match decode (layBytes (max 1 (nbits / 8)) w) with
  | .ok (i, []) => some i
  | _ => none

/-- The selector fields of an operation's canonical value: those that R99 to R101 produce for it
when `rst = 0`, with every untested bit 0 (R103). -/
def Instr.selector : Instr → Selector
  | .reset => ⟨true, .syncing, .none, false, false⟩
  | .scanMatch => ⟨false, .syncing, .byte, true, false⟩
  | .scanMiss => ⟨false, .syncing, .byte, false, false⟩
  | .scanDone => ⟨false, .syncing, .none, false, true⟩
  | .scanFail => ⟨false, .syncing, .err, false, false⟩
  | .waitScan => ⟨false, .syncing, .none, false, false⟩
  | .readStore => ⟨false, .reading, .byte, false, false⟩
  | .readDone => ⟨false, .reading, .none, false, true⟩
  | .readFail => ⟨false, .reading, .err, false, false⟩
  | .waitRead => ⟨false, .reading, .none, false, false⟩
  | .pipeShow => ⟨false, .display, .ack, false, false⟩
  | .waitShow => ⟨false, .display, .none, false, false⟩
  | .pipeSkip => ⟨false, .skip, .none, false, false⟩
  | .halt => ⟨false, .failed, .none, false, false⟩

/-- The encoder: the one byte that selects an operation, in its canonical value (R103). -/
def encode (i : Instr) : List Byte := [i.selector.bits]

end Sys2Proof
end

