-- ==== Sys2Proof/Machine/State.lean ====
section
/-! DEFINITION. The state of FSYNC as plain data: the six architectural elements (spec/10_state.md
R20), the parameters and the configuration that stay fixed while it runs (R21, R37), the environment
that supplies each step's input (spec/00_scope.md R9, R10), and what has been observed (R10, D25). -/

namespace Sys2Proof.Machine

/-- `ERR.CAUSE` (R36). The reserved code `11` is not a value (log entry 14). -/
inductive Cause where
  | none
  | syncIo
  | readIo
  deriving DecidableEq, Repr

/-- The failure record `ERR` (R36): the cause, and the sub-code as the Byte Source gave it. -/
structure Err where
  cause : Cause
  code : Nat
  deriving DecidableEq, Repr

/-- `ERR` all zero: no failure (R36, R40). -/
def Err.clear : Err := { cause := .none, code := 0 }

/-- An output event (R95). -/
inductive Event where
  /-- `LOG(bytes)`: the skipped bytes of a successful scan. -/
  | log (bytes : List Byte)
  /-- `FRAME(w, h, bytes)`: a completed frame, by value. -/
  | frame (w h : Nat) (bytes : List Byte)
  /-- `FAIL(cause, code)`: the propagated read error. -/
  | fail (cause : Cause) (code : Nat)
  deriving DecidableEq, Repr

/-- The environment: where the input of each step comes from (log entry 2). -/
inductive Env where
  /-- One input record for each coming step; when the list is used up nothing is offered. -/
  | inputs (l : List In)
  /-- A stimulus program (R110): each item is offered until FSYNC takes it. With `prompt`, the sink
  acknowledges as soon as `PHASE = DISPLAY`. -/
  | program (items : List Item) (prompt : Bool)
  deriving DecidableEq, Repr

/-- The state of the closed system. -/
structure State where
  /-- The build-time parameters (R7); no step changes them. -/
  build : Build
  /-- The static configuration inputs as last shown (R21, R37). -/
  cfg : Config
  /-- `PHASE` (R26). -/
  phase : Phase
  /-- `PROGRESS` (R22). -/
  progress : Nat
  /-- `SKIPPED` (R24). -/
  skipped : List Byte
  /-- `COUNT` (R23). -/
  count : Nat
  /-- `FB` (R61, R62): the written cells, addresses strictly rising; an unlisted cell holds no value. -/
  fb : List Host.Cell
  /-- `ERR` (R36). -/
  err : Err
  /-- The step inputs still to come (R9, R10). -/
  env : Env
  /-- Observation: the output events so far, oldest first (R10). No operation reads it. -/
  out : List Event
  /-- Observation: how many stream bytes have been consumed (D25). No operation reads it. -/
  consumed : Nat
  /-- Observation: the last step took the Byte Source's answer (`answered` of R173). No operation
  reads it. -/
  answered : Bool
  deriving DecidableEq, Repr

/-- Why the machine stops with a fault. -/
inductive Fault where
  /-- An unwritten Frame Buffer cell was read while a frame is presented (raised by `PIPE.SHOW` and by
  the frame read port; R62, U7). SAFE: the spec asks for this fault, and no reachable state raises it. -/
  | unwrittenCell
  /-- A store to a Frame Buffer index that does not exist (raised by the cell store; R74). SAFE: no
  operation stores there. -/
  | noSuchCell
  deriving DecidableEq, Repr

/-- Why the model gives a step no meaning. -/
inductive Refusal where
  /-- The operation has no meaning in this model yet (raised by `exec` alone; no arm does). SAFE. -/
  | notModelled (mnemonic : String)
  /-- The selector value matches no row of the operation map (raised by the selection of a step;
  R105). SAFE: no state produces one. -/
  | reservedSelector
  /-- The parameters or the configuration are not legal while `rst = 0` (raised by the selection of a
  step; R107, U1, U2; for the parameters log entry 4). SAFE: the spec refuses such a run, or R7 allows no
such realisation. -/
  | illegalConfig
  /-- The configuration inputs change while `rst = 0` (raised by the selection of a step; R37, R80,
  R249, U4). SAFE: the spec refuses such a run. -/
  | configChanged
  /-- An error answer carries a sub-code that is no `ERR_BITS`-bit value (raised by the selection of a
  step; R10). SAFE: the interface cannot carry it (log entry 5). -/
  | illegalInput
  /-- `exec` was asked for an operation that the step does not select (raised by every meaning; R27,
  R102). SAFE: `step` never asks for one (log entry 6). -/
  | notSelected
  /-- `StreamRead()`, or the sub-code of an error answer, where no such answer is on offer (raised by
  the operand reads; R13). SAFE: a selected operation has its answer. -/
  | noAnswer
  deriving DecidableEq, Repr

/-- FSYNC right after reset (R40), with the default parameters and configuration (R6, R7), no input
placed and nothing observed yet. -/
def State.reset : State :=
  { build := Build.standard
    cfg := Config.standard
    phase := .syncing
    progress := 0
    skipped := []
    count := 0
    fb := []
    err := Err.clear
    env := .inputs []
    out := []
    consumed := 0
    answered := false }

end Sys2Proof.Machine
end

