-- ==== Sys2Proof/Machine/Operands.lean ====
section
/-! DEFINITION. Operands: the current step input, the stream byte and the sub-code, the marker byte,
the frame length, the register widths (spec/30_encoding.md R97, R98, R110; spec/00_scope.md R7, R16). -/

namespace Sys2Proof

/-- Leading `I 0` items ask for no step and are passed over (R110). -/
def Item.settle : List Item → List Item
  | .idle 0 :: rest => Item.settle rest
  | l => l

/-- What a stimulus program offers in a step, given whether `PHASE = DISPLAY` (R110). During `I k`
nothing is offered, by a prompt sink either; during `R` only `rst` is driven. DESIGN CHOICE (log entry
12): an `R` item that comes next takes the very next step, so `RESET` goes before a `SCAN.DONE`,
`READ.DONE` or `PIPE.SKIP` that is enabled there (its `LOG` is then lost), as R209 ranks them in one
step; R110 does not say whether those operations run before the `R` item. -/
def Item.offer (prompt display : Bool) (items : List Item) : In :=
  match Item.settle items with
  | [] => { ack := prompt && display }
  | .answer a :: _ => { src := some a, ack := prompt && display }
  | .ack :: _ => { ack := display }
  | .idle _ :: _ => {}
  | .reset :: _ => { rst := true }

/-- `N = WIDTH * HEIGHT`, the exact product (R16, R35, R97). -/
def Config.frameLen (c : Config) : Nat := c.width * c.height

/-- `PROG_BITS`, the smallest number of bits with `2^PROG_BITS > MAXL` (R7). -/
def Build.progBits (p : Build) : Option Nat := p.maxl.map fun m => Nat.log2 m + 1

/-- `CNT_BITS = 2 * DIM_BITS` (R7). -/
def Build.cntBits (p : Build) : Option Nat := p.dimBits.map fun d => 2 * d

/-- The byte of one ASCII character; none for any other character (R12, R94, U24). -/
def asciiByte (c : Char) : Option Byte :=
  if c.toNat < 128 then some (BitVec.ofNat 8 c.toNat) else none

/-- The bytes of a text, one ASCII code a character; none for a text that is not ASCII (R94). -/
def asciiBytes : List Char → Option (List Byte)
  | [] => some []
  | c :: cs =>
    match asciiByte c, asciiBytes cs with
    | some b, some bs => some (b :: bs)
    | _, _ => none

/-- The pseudo-item `S "text"`: one `B` item a character (R110). -/
def Item.text (cs : List Char) : Option (List Item) :=
  (asciiBytes cs).map fun bs => bs.map fun b => Item.answer (.byte b)

/-- The sub-codes the spec names (R203); FSYNC treats all values alike. -/
def codeOther : Nat := 0
/-- A read timed out (R203). -/
def codeTimeout : Nat := 1
/-- The device disconnected (R203). -/
def codeDisconnect : Nat := 2
/-- The stream ended, or a read came back short (R203). -/
def codeEof : Nat := 3

end Sys2Proof

namespace Sys2Proof.Machine

/-- The input `(rst, src, ack)` of the step about to be taken (R10). -/
def State.input (s : State) : In :=
  match s.env with
  | .inputs [] => {}
  | .inputs (x :: _) => x
  | .program items prompt => Item.offer prompt (decide (s.phase = .display)) items

/-- `L` (R32). -/
abbrev State.markerLen (s : State) : Nat := s.cfg.mlen

/-- `N` of the current configuration. -/
abbrev State.frameLen (s : State) : Nat := s.cfg.frameLen

/-- `MARKER[PROGRESS]`, the matcher's comparison operand; none where the marker has no such position
(R98, R63). -/
def State.expected (s : State) : Option Byte := s.cfg.marker[s.progress]?

/-- `StreamRead()`: the byte on offer (R13). -/
def State.offeredByte (s : State) : Option Byte :=
  match s.input.src with
  | some (.byte b) => some b
  | _ => none

/-- The sub-code of the error answer on offer (R96). -/
def State.offeredCode (s : State) : Option Nat :=
  match s.input.src with
  | some (.err c) => some c
  | _ => none

/-- The 2-bit code of a cause (R36). -/
def Cause.code : Cause → BitVec 2
  | .none => 0b00
  | .syncIo => 0b01
  | .readIo => 0b10

/-- The register `ERR` as a word: `CAUSE` above the `ERR_BITS` bits of `CODE` (R36). -/
def Err.word (e : Err) (bits : Nat) : BitVec (2 + bits) := e.cause.code ++ BitVec.ofNat bits e.code

end Sys2Proof.Machine
end

