-- ==== Sys2Proof/Machine/Flags.lean ====
section
/-! DEFINITION. The derived conditions of a step (spec/10_state.md R29, R44; spec/30_encoding.md R99,
R100), the operation selector computed from them (R101), and the operation it selects, with what the
model refuses (R102, R105, R107, R249). -/

namespace Sys2Proof.Machine

/-- A read request is outstanding, leaving `rst` aside: the form in which R99 evaluates R44. -/
def State.requesting (s : State) : Bool :=
  match s.phase with
  | .syncing => decide (s.progress < s.markerLen)
  | .reading => decide (s.count < s.frameLen)
  | .display => false
  | .skip => false
  | .failed => false

/-- The output `in_ready` (R44). -/
def State.inReady (s : State) (rst : Bool) : Bool := !rst && s.requesting

/-- `EV` (R99): an error wins over a byte by being the answer; unsolicited input is ignored. -/
def State.ev (s : State) : Ev :=
  if s.requesting then
    match s.input.src with
    | some (.err _) => .err
    | some (.byte _) => .byte
    | none => .none
  else if decide (s.phase = .display) && s.input.ack then .ack
  else .none

/-- `TC`, terminal count (R100). -/
def State.tc (s : State) : Bool :=
  (decide (s.phase = .syncing) && decide (s.progress = s.markerLen)) ||
    (decide (s.phase = .reading) && decide (s.count = s.frameLen))

/-- `EQ`, the offered byte equals the expected marker byte (R100). -/
def State.eq (s : State) : Bool :=
  decide (s.phase = .syncing) && decide (s.progress < s.markerLen) && decide (s.ev = .byte) &&
    decide (s.offeredByte = s.expected)

/-- `SKIP_NONEMPTY` (R29). -/
def State.skipNonempty (s : State) : Bool := decide (0 < s.skipped.length)

/-- `EMPTY_FRAME` (R29). -/
def State.emptyFrame (s : State) : Bool := decide (s.frameLen = 0)

/-- The failure flag (R30). -/
def State.failed (s : State) : Bool := decide (s.phase = .failed)

/-- The selector fields of the step (R101). -/
def State.selector (s : State) : Selector :=
  { rst := s.input.rst, phase := s.phase, ev := s.ev, eq := s.eq, tc := s.tc }

/-- `OPSEL` of the step (R101). -/
def State.opsel (s : State) : OpSel := s.selector.bits

/-- The configuration buses show what they showed before (R37, R46 (e)). -/
def State.cfgStable (s : State) : Bool :=
  match s.input.cfg with
  | none => true
  | some c => decide (c = s.cfg)

/-- The parameters and the configuration are legal (R7, R107). That parameters outside the constraints
of R7 are refused as an illegal configuration is, is a DESIGN CHOICE (log entry 4). -/
def State.cfgLegal (s : State) : Bool := s.build.wf && s.cfg.wf s.build

/-- An error answer that is looked at carries a sub-code of `ERR_BITS` bits (R10). -/
def State.srcLegal (s : State) : Bool :=
  !s.requesting ||
    match s.input.src with
    | some a => a.wf s.build
    | none => true

/-- What a run-time step (`rst = 0`) is refused for, before any operation is selected. Which reason is
answered where several hold is a DESIGN CHOICE (log entry 4). -/
def State.objection (s : State) : Option Refusal :=
  if !s.cfgStable then some .configChanged
  else if !s.cfgLegal then some .illegalConfig
  else if !s.srcLegal then some .illegalInput
  else none

/-- The decoding procedure of a step (R102, R173): the operation that executes, or why none does.
With `rst = 1` it is `RESET` whatever else holds (R165, R209). -/
def State.selected (s : State) : Except Refusal Instr :=
  match decodeSel s.opsel with
  | none => .error .reservedSelector
  | some i =>
    if s.input.rst then .ok i
    else
      match s.objection with
      | some r => .error r
      | none => .ok i

/-- The step is at run time, in a legal and unchanged configuration, with an input the interface can
carry: the domain on which the spec gives the 13 operations other than `RESET` a meaning (R107,
R217, R249). -/
abbrev State.Running (s : State) : Prop :=
  s.input.rst = false ∧ s.cfgStable = true ∧ s.cfgLegal = true ∧ s.srcLegal = true

end Sys2Proof.Machine
end

