-- ==== Sys2Proof/Machine/Ops.lean ====
section
/-! DEFINITION. The named operations the meanings share: the Frame Buffer (spec/20_memory.md R61, R62,
R74), the skipped-byte accumulator (spec/10_state.md R24), the environment's turn (spec/30_encoding.md
R110), output events (R95), failure entry (spec/60_exceptions.md R211), the reset values
(spec/10_state.md R40), and the frame every meaning is written in. -/

namespace Sys2Proof.Machine

/-- The value of Frame Buffer cell `i`; none where nothing has written it (R62). What an unlisted
address reads as is `none` (log entry 9). -/
def fbRead : List Host.Cell → Nat → Option Byte
  | [], _ => none
  | (a, b) :: rest, i => if a = i then some b else fbRead rest i

/-- `FB[i] <- b` (R13), keeping the addresses rising. -/
def fbWrite : List Host.Cell → Nat → Byte → List Host.Cell
  | [], i, v => [(i, v)]
  | (a, b) :: rest, i, v =>
    if i < a then (i, v) :: (a, b) :: rest
    else if i = a then (i, v) :: rest
    else (a, b) :: fbWrite rest i v

/-- Every address of the list lies in `[lo, n)` and the addresses rise strictly. -/
def fbOrdered (n : Nat) : Nat → List Host.Cell → Bool
  | _, [] => true
  | lo, (a, _) :: rest => decide (lo ≤ a) && decide (a < n) && fbOrdered n (a + 1) rest

/-- The canonical form of a Frame Buffer of `n` cells: existing addresses, strictly rising (R74). An
unlisted cell holds no value, so no entry can equal it. -/
def Memory.wf (n : Nat) (cells : List Host.Cell) : Bool := fbOrdered n 0 cells

/-- The values of the `k` cells from index `i` on; none if one of them is unwritten (R62). -/
def fbReadRange (cells : List Host.Cell) : Nat → Nat → Option (List Byte)
  | _, 0 => some []
  | i, k + 1 =>
    match fbRead cells i, fbReadRange cells (i + 1) k with
    | some b, some bs => some (b :: bs)
    | _, _ => none

/-- `MemRead(FB, 0, N)` (R13, R62). -/
def State.frameBytes (s : State) : Option (List Byte) := fbReadRange s.fb 0 s.frameLen

/-- The skipped-byte accumulator with one more byte, unless it is full (R24, R122). -/
def appendSkipped (cap : Option Nat) (skipped : List Byte) (b : Byte) : List Byte :=
  match cap with
  | none => skipped ++ [b]
  | some n => if skipped.length < n then skipped ++ [b] else skipped

/-- What a step took from its environment. -/
inductive Taken where
  /-- Nothing. -/
  | nothing
  /-- A byte of the stream (R173 `consumed`). -/
  | byte
  /-- An error answer (R173 `answered`, not `consumed`). -/
  | error
  /-- The sink's acknowledgement. -/
  | ack
  deriving DecidableEq, Repr

/-- The Byte Source's answer was taken (`answered` of R173). -/
def Taken.answered : Taken → Bool
  | .nothing => false
  | .byte => true
  | .error => true
  | .ack => false

/-- How many stream bytes were consumed (R28). -/
def Taken.bytes : Taken → Nat
  | .nothing => 0
  | .byte => 1
  | .error => 0
  | .ack => 0

/-- The items of a stimulus program that remain after a step that took `t` (R110). -/
def itemsAfter (t : Taken) (items : List Item) : List Item :=
  match Item.settle items with
  | [] => []
  | .answer a :: rest => if t.answered then rest else .answer a :: rest
  | .ack :: rest => if t = .ack then rest else .ack :: rest
  | .idle k :: rest => .idle (k - 1) :: rest
  | .reset :: rest => rest

/-- The environment after a step that took `t`: an input record belongs to one step, a stimulus item
is offered until it is taken (R110, log entry 2). -/
def Env.after (t : Taken) : Env → Env
  | .inputs l => .inputs l.tail
  | .program items prompt => .program (itemsAfter t items) prompt

/-- The end of a step that took `t` (R173): the environment moves on and the observation records what
was taken. -/
def State.endStep (s : State) (t : Taken) : State :=
  { s with env := s.env.after t, answered := t.answered, consumed := s.consumed + t.bytes }

/-- `emit E` (R13). -/
def State.emit (s : State) (e : Event) : State := { s with out := s.out ++ [e] }

/-- `if |SKIPPED| > 0 then emit LOG(SKIPPED)` (R123). -/
def State.emitLog (s : State) : State := if s.skipNonempty then s.emit (.log s.skipped) else s

/-- TAKING THE EXCEPTION: `raise IoError(cause, c)` (R211). `ERR` records the cause and the sub-code,
`PHASE` becomes `FAILED`, `FAIL` is emitted; nothing else is written, and control goes nowhere. -/
def State.raiseIoError (s : State) (cause : Cause) (c : Nat) : State :=
  { s with err := { cause := cause, code := c }, phase := .failed }.emit (.fail cause c)

/-- LEAVING THE FAILURE: the reset values of the six state elements (R40, R165). There is no other
return (R214). -/
def State.clear (s : State) : State :=
  { s with phase := .syncing, progress := 0, skipped := [], count := 0, fb := [], err := Err.clear }

/-- The configuration the buses show in this step (R42, R165 (d)). -/
def State.shownCfg (s : State) : Config := s.input.cfg.getD s.cfg

/-- The outcome of a step. -/
abbrev Result := Host.Outcome State Fault Refusal

/-- A meaning's frame: operation `i` executes exactly where the step selects it (R27, R102, R103); what
refuses the step refuses the operation too. -/
def perform (i : Instr) (s : State) (body : Result) : Result :=
  match s.selected with
  | .error r => .refused r
  | .ok j => if j = i then body else .refused .notSelected

/-- `b <- StreamRead()` (R13). -/
def streamRead (s : State) (body : Byte → Result) : Result :=
  match s.offeredByte with
  | some b => body b
  | none => .refused .noAnswer

/-- The sub-code `c` of `src = err(c)` (R124, R143). -/
def readCode (s : State) (body : Nat → Result) : Result :=
  match s.offeredCode with
  | some c => body c
  | none => .refused .noAnswer

/-- `MemWrite(FB, i, 1, b)`, defined for `i < N` (R13, R74). -/
def storeCell (s : State) (i : Nat) (b : Byte) (body : State → Result) : Result :=
  if i < s.frameLen then body { s with fb := fbWrite s.fb i b } else .fault .noSuchCell

/-- `MemRead(FB, 0, N)`; an unwritten cell is a fault (R62). -/
def readFrame (s : State) (body : List Byte → Result) : Result :=
  match s.frameBytes with
  | some bytes => body bytes
  | none => .fault .unwrittenCell

end Sys2Proof.Machine
end

