-- ==== Sys2Proof/Machine/FramePipeline.lean ====
section
/-! DEFINITION. The Frame Pipeline family (spec/42_frame_pipeline.md R161 to R165). -/

namespace Sys2Proof.Machine

/-- `PIPE.SHOW` (R161): the frame is handed over by value, the buffer is released, and the next
iteration starts. -/
def execPipeShow (s : State) : Result :=
  perform .pipeShow s <|
    readFrame s fun bytes =>
      .next ({ s.emit (.frame s.cfg.width s.cfg.height bytes) with
        fb := [], count := 0, progress := 0, skipped := [], phase := .syncing }.endStep .ack)

/-- `WAIT.SHOW` (R162): the sink has not acknowledged; no state element changes. -/
def execWaitShow (s : State) : Result :=
  perform .waitShow s <| .next (s.endStep .nothing)

/-- `PIPE.SKIP` (R163): the frame is empty; the next iteration starts and nothing is shown. -/
def execPipeSkip (s : State) : Result :=
  perform .pipeSkip s <|
    .next ({ s with count := 0, progress := 0, skipped := [], phase := .syncing }.endStep .nothing)

/-- `HALT` (R164): FSYNC has failed and stays failed; no state element changes. -/
def execHalt (s : State) : Result :=
  perform .halt s <| .next (s.endStep .nothing)

/-- `RESET` (R165): the reset values, from every phase and whatever the other inputs are. The
configuration becomes what the buses show, which may differ only now (R80, R165 (d)). -/
def execReset (s : State) : Result :=
  perform .reset s <| .next ({ s.clear with cfg := s.shownCfg }.endStep .nothing)

end Sys2Proof.Machine
end

