-- ==== Sys2Proof/Machine/FrameReader.lean ====
section
/-! DEFINITION. The Frame Reader family (spec/41_frame_reader.md R141 to R144). -/

namespace Sys2Proof.Machine

/-- `READ.STORE` (R141): the byte is consumed and goes to `FB[COUNT]`, and `COUNT` advances. -/
def execReadStore (s : State) : Result :=
  perform .readStore s <|
    streamRead s fun b =>
      storeCell s s.count b fun t => .next ({ t with count := s.count + 1 }.endStep .byte)

/-- `READ.DONE` (R142): the read is complete; an empty frame is skipped, any other is displayed. -/
def execReadDone (s : State) : Result :=
  perform .readDone s <|
    .next ({ s with phase := if s.emptyFrame then .skip else .display }.endStep .nothing)

/-- `READ.FAIL` (R143): the reader's read fails with cause `READ_IO`. -/
def execReadFail (s : State) : Result :=
  perform .readFail s <|
    readCode s fun c => .next ((s.raiseIoError .readIo c).endStep .error)

/-- `WAIT.READ` (R144): no answer yet; no state element changes. -/
def execWaitRead (s : State) : Result :=
  perform .waitRead s <| .next (s.endStep .nothing)

end Sys2Proof.Machine
end

