-- ==== Sys2Proof/Machine/SyncScanner.lean ====
section
/-! DEFINITION. The Sync Scanner family (spec/40_sync_scanner.md R121 to R125). -/

namespace Sys2Proof.Machine

/-- `SCAN.MATCH` (R121): the byte equals `MARKER[PROGRESS]`; it is consumed and `PROGRESS` advances. -/
def execScanMatch (s : State) : Result :=
  perform .scanMatch s <|
    streamRead s fun _ => .next ({ s with progress := s.progress + 1 }.endStep .byte)

/-- `SCAN.MISS` (R122): the byte differs; it is consumed and logged, and matching starts over at the
next byte, without a second look at this one (R127). -/
def execScanMiss (s : State) : Result :=
  perform .scanMiss s <|
    streamRead s fun b =>
      .next ({ s with progress := 0, skipped := appendSkipped s.build.skipCap s.skipped b }.endStep .byte)

/-- `SCAN.DONE` (R123): the whole marker has been matched; the log is emitted if anything was
skipped, and `READING` begins. -/
def execScanDone (s : State) : Result :=
  perform .scanDone s <|
    .next ({ s.emitLog with skipped := [], progress := 0, count := 0, phase := .reading }.endStep .nothing)

/-- `SCAN.FAIL` (R124): the scanner's read fails with cause `SYNC_IO`. -/
def execScanFail (s : State) : Result :=
  perform .scanFail s <|
    readCode s fun c => .next ((s.raiseIoError .syncIo c).endStep .error)

/-- `WAIT.SCAN` (R125): no answer yet; no state element changes. -/
def execWaitScan (s : State) : Result :=
  perform .waitScan s <| .next (s.endStep .nothing)

end Sys2Proof.Machine
end

