-- ==== Sys2Proof/Machine/Dispatch.lean ====
section
/-! DEFINITION. One arm per operation of the operation map (spec/30_encoding.md R103). -/

namespace Sys2Proof.Machine

def exec (i : Instr) (s : State) : Host.Outcome State Fault Refusal :=
  match i with
  | .reset => Sys2Proof.Machine.execReset s
  | .scanMatch => Sys2Proof.Machine.execScanMatch s
  | .scanMiss => Sys2Proof.Machine.execScanMiss s
  | .scanDone => Sys2Proof.Machine.execScanDone s
  | .scanFail => Sys2Proof.Machine.execScanFail s
  | .waitScan => Sys2Proof.Machine.execWaitScan s
  | .readStore => Sys2Proof.Machine.execReadStore s
  | .readDone => Sys2Proof.Machine.execReadDone s
  | .readFail => Sys2Proof.Machine.execReadFail s
  | .waitRead => Sys2Proof.Machine.execWaitRead s
  | .pipeShow => Sys2Proof.Machine.execPipeShow s
  | .waitShow => Sys2Proof.Machine.execWaitShow s
  | .pipeSkip => Sys2Proof.Machine.execPipeSkip s
  | .halt => Sys2Proof.Machine.execHalt s

end Sys2Proof.Machine
end

