-- ==== Sys2Proof/Machine/Fetch.lean ====
section
/-! DEFINITION. Placing an operation so that the next step selects it. FSYNC fetches nothing
(spec/00_scope.md R8): the selector is computed from `rst`, the phase, the input and the counters
(spec/30_encoding.md R99 to R101), so placing one sets those (log entry 11). -/

namespace Sys2Proof.Machine

/-- The environment with `x` as the input of the next step. -/
def Env.present (x : In) : Env → Env
  | .inputs l => .inputs (x :: l.tail)
  | .program _ _ => .inputs [x]

/-- The next step's input becomes `x`. -/
def State.present (s : State) (x : In) : State := { s with env := s.env.present x }

/-- A byte that equals, or one that differs from, the next expected marker byte (R100). -/
def State.byteFor (s : State) (eq : Bool) : Byte :=
  let m := s.expected.getD 0
  if eq then m else m + 1

/-- The answer an event class asks for. -/
def State.answerFor (s : State) (ev : Ev) (eq : Bool) : Option Answer :=
  match ev with
  | .byte => some (.byte (s.byteFor eq))
  | .err => some (.err 0)
  | .none => none
  | .ack => none

/-- The smallest frame that is not empty, 1 by 1. -/
def State.onePixel (s : State) : State := { s with cfg := { s.cfg with width := 1, height := 1 } }

/-- The smallest frame, read completely. -/
def State.onePixelRead (s : State) (phase : Phase) : State :=
  { s.onePixel with phase := phase, count := 1, fb := [(0, 0)] }

/-- The state and input, close to the reset state, in which the step selects the operation of the
selector fields `f`: every placed state satisfies the table of R41. -/
def State.placeSelector (s : State) (f : Selector) : State :=
  let z := s.clear
  if f.rst then s.present { rst := true }
  else
    match f.phase with
    | .syncing =>
      if f.tc then { z with progress := z.markerLen }.present {}
      else z.present { src := z.answerFor f.ev f.eq }
    | .reading =>
      if f.tc then (z.onePixelRead .reading).present {}
      else
        let y := if z.frameLen = 0 then z.onePixel else z
        { y with phase := .reading }.present { src := z.answerFor f.ev f.eq }
    | .display => (z.onePixelRead .display).present { ack := decide (f.ev = .ack) }
    | .skip => { z with cfg := { z.cfg with width := 0 }, phase := .skip }.present {}
    | .failed => { z with phase := .failed, err := { cause := .syncIo, code := 0 } }.present {}

/-- Placing a selector value, read by the decoder of R102: a reserved value (R105) selects nothing and
places nothing. A value that selects an operation and has a reserved phase field is one of `RESET`. -/
def State.placeWord (s : State) (w : OpSel) : State :=
  match decodeSel w, Selector.ofBits w with
  | none, _ => s
  | some _, some f => s.placeSelector f
  | some _, none => s.present { rst := true }

end Sys2Proof.Machine
end

