-- ==== Sys2Proof/Machine/Step.lean ====
section
/-! DEFINITION. One step of FSYNC (spec/42_frame_pipeline.md R173), and the placing of an operation. -/

namespace Sys2Proof.Machine

/-- One step (R173): the selector picks the operation, and the operation executes. -/
def step (s : State) : Host.Outcome State Fault Refusal :=
  match s.selected with
  | .error r => .refused r
  | .ok i => exec i s

/-- `s` with the operation of the selector word `w` placed for the next step (log entry 11). A table
row has 8 bits; bits above `nbits` are 0. -/
def State.withFetchWord (s : State) (nbits w : Nat) : State :=
  s.placeWord (BitVec.ofNat 8 (w % 2 ^ nbits))

end Sys2Proof.Machine
end

