-- ==== Sys2Proof/Machine/Pins.lean ====
section
/-! DEFINITION. The pin-level interface (spec/10_state.md R42 to R45): how the input pins make the step
input, and the output pins as functions of the state and of `rst`. The clock is the step itself. -/

namespace Sys2Proof.Machine

/-- The input pins of one clock cycle (R42). -/
structure PinsIn where
  rst : Bool
  /-- `cfg_marker`: byte `p` is `cfg_marker[8p+7 : 8p]`; one byte for each cell of the marker store. -/
  cfgMarker : List Byte
  cfgMlen : Nat
  cfgWidth : Nat
  cfgHeight : Nat
  inValid : Bool
  inData : Byte
  inErr : Bool
  inErrcode : Nat
  fbRaddr : Nat
  frameReady : Bool
  deriving DecidableEq, Repr

/-- The output pins of one clock cycle, `fb_rdata` and `log_data` apart (R42). -/
structure PinsOut where
  inReady : Bool
  frameValid : Bool
  frameWidth : Nat
  frameHeight : Nat
  logValid : Bool
  logLen : Nat
  fail : Bool
  errCause : BitVec 2
  errCode : Nat
  phase : BitVec 3
  deriving DecidableEq, Repr

/-- The answer on the pins: `in_err` wins over `in_valid` (R42, V54). -/
def PinsIn.src (p : PinsIn) : Option Answer :=
  if p.inErr then some (.err p.inErrcode)
  else if p.inValid then some (.byte p.inData)
  else none

/-- The configuration on the pins: the first `L` bytes of the marker bus; the others are never read
(R33, R42). -/
def PinsIn.config (p : PinsIn) : Config :=
  { marker := p.cfgMarker.take p.cfgMlen, mlen := p.cfgMlen, width := p.cfgWidth, height := p.cfgHeight }

/-- The step input read off the pins (R42). -/
def PinsIn.input (p : PinsIn) : In :=
  { rst := p.rst, src := p.src, ack := p.frameReady, cfg := some p.config }

/-- The environment that drives the pins so, one record for each clock cycle. -/
def Env.ofPins (l : List PinsIn) : Env := .inputs (l.map PinsIn.input)

/-- `log_valid` (R43). -/
def State.logValid (s : State) (rst : Bool) : Bool :=
  !rst && decide (s.phase = .syncing) && decide (s.progress = s.markerLen) && s.skipNonempty

/-- The output pins (R43, R44). DESIGN CHOICE (log entry 19): in a step with `rst = 1` whose buses show
a new configuration, `frame_width` and `frame_height` still show the configuration held before that
step, and the new one from the step after it on. -/
def State.pins (s : State) (rst : Bool) : PinsOut :=
  { inReady := s.inReady rst
    frameValid := decide (s.phase = .display)
    frameWidth := s.cfg.width
    frameHeight := s.cfg.height
    logValid := s.logValid rst
    logLen := s.skipped.length
    fail := s.failed
    errCause := s.err.cause.code
    errCode := s.err.code
    phase := s.phase.code }

/-- Byte `i` of `log_data` (R42): `SKIPPED[i]` below `log_len`, a free value above (log entry 8). -/
def State.logByte (s : State) (i draw : Nat) : Byte := (s.skipped[i]?).getD (Config.freeByte draw)

/-- `fb_rdata` (R45): the cell at `fb_raddr` while a frame is presented; otherwise a free value, the
`draw`-th (log entry 8). An unwritten cell of a presented frame is a fault (R62). `N` is that of the
configuration held before the step, in a reset step too (DESIGN CHOICE, log entry 19). -/
def State.fbRdata (s : State) (raddr draw : Nat) : Except Fault Byte :=
  if s.phase = .display ∧ raddr < s.frameLen then
    match fbRead s.fb raddr with
    | some b => .ok b
    | none => .error .unwrittenCell
  else .ok (Config.freeByte draw)

end Sys2Proof.Machine
end

