-- ==== Sys2Proof/Machine/Reference.lean ====
section
/-! DEFINITION. The spec's second description of FSYNC: the reference functions on the list of Byte
Source answers (spec/40_sync_scanner.md R131, spec/41_frame_reader.md R148, spec/42_frame_pipeline.md
R170), the restart points of the scanner (R126, R129), the macro-operations (spec/30_encoding.md R111),
and runs of the step function. -/

namespace Sys2Proof.Machine

/-! ## The reference functions -/

/-- The result of `sync` (R131). -/
inductive SyncResult where
  | ok (used : Nat) (skipped : List Byte)
  | blocked (progress : Nat) (skipped : List Byte)
  | err (cause : Cause) (code : Nat) (used : Nat)
  deriving DecidableEq, Repr

/-- The loop of `sync` (R131) from progress `p`, skipped bytes `sk` and `used` bytes consumed. -/
def syncFrom (marker : List Byte) (cap : Option Nat) : List Answer → Nat → List Byte → Nat → SyncResult
  | [], p, sk, used => if p = marker.length then .ok used sk else .blocked p sk
  | a :: rest, p, sk, used =>
    if p = marker.length then .ok used sk
    else
      match a with
      | .err c => .err .syncIo c used
      | .byte b =>
        if marker[p]? = some b then syncFrom marker cap rest (p + 1) sk (used + 1)
        else syncFrom marker cap rest 0 (appendSkipped cap sk b) (used + 1)

/-- `sync(MARKER, answers)` (R131). -/
def sync (marker : List Byte) (cap : Option Nat) (answers : List Answer) : SyncResult :=
  syncFrom marker cap answers 0 [] 0

/-- The result of `read_frame` (R148). -/
inductive ReadResult where
  | ok (used : Nat) (buf : List Byte)
  | blocked (buf : List Byte)
  | err (cause : Cause) (code : Nat) (used : Nat)
  deriving DecidableEq, Repr

/-- The loop of `read_frame` (R148) from the buffer `buf` and `used` bytes consumed. -/
def readFrameFrom (n : Nat) : List Answer → List Byte → Nat → ReadResult
  | [], buf, used => if buf.length = n then .ok used buf else .blocked buf
  | a :: rest, buf, used =>
    if buf.length = n then .ok used buf
    else
      match a with
      | .err c => .err .readIo c used
      | .byte b => readFrameFrom n rest (buf ++ [b]) (used + 1)

/-- `read_frame(N, answers)` (R148). -/
def readFrameOf (n : Nat) (answers : List Answer) : ReadResult := readFrameFrom n answers [] 0

/-- The loop of `run` (R170), at most `fuel` iterations; the second component is the phase in which
it waits or has failed. -/
def runFrom (cap : Option Nat) (c : Config) : Nat → List Answer → List Event × Phase
  | 0, _ => ([], .syncing)
  | fuel + 1, answers =>
    match sync c.marker cap answers with
    | .blocked _ _ => ([], .syncing)
    | .err cause code _ => ([.fail cause code], .failed)
    | .ok u skipped =>
      let logged := if skipped = [] then [] else [Event.log skipped]
      match readFrameOf c.frameLen (answers.drop u) with
      | .blocked _ => (logged, .reading)
      | .err cause code _ => (logged ++ [.fail cause code], .failed)
      | .ok v buf =>
        let shown := if 0 < c.frameLen then [Event.frame c.width c.height buf] else []
        let later := runFrom cap c fuel ((answers.drop u).drop v)
        (logged ++ shown ++ later.1, later.2)

/-- `run(Config, answers)` (R170). Every iteration uses up at least one answer, so the fuel is never
short. -/
def referenceRun (cap : Option Nat) (c : Config) (answers : List Answer) : List Event × Phase :=
  runFrom cap c (answers.length + 1) answers

/-! ## The scanner as an automaton -/

/-- The transition function `delta(p, b)` of the scanner (R126). -/
def scanDelta (marker : List Byte) (p : Nat) (b : Byte) : Nat :=
  if marker[p]? = some b then p + 1 else 0

/-- The greedy match length: how many leading bytes of `s` equal the marker's (R129). -/
def greedy : List Byte → List Byte → Nat
  | m :: ms, b :: bs => if m = b then greedy ms bs + 1 else 0
  | _, _ => 0

/-- `r` is a restart point of the scan of `s`, and the abandoned match lengths before it are `ms`, in
order (R129). -/
inductive RestartPoint (marker s : List Byte) : Nat → List Nat → Prop where
  | start : RestartPoint marker s 0 []
  | next (r : Nat) (ms : List Nat) (h : RestartPoint marker s r ms)
      (short : greedy marker (s.drop r) < marker.length)
      (inside : r + greedy marker (s.drop r) < s.length) :
      RestartPoint marker s (r + greedy marker (s.drop r) + 1) (ms ++ [greedy marker (s.drop r)])

/-- The answers that deliver the bytes of a stream, each once, in order. -/
def byteAnswers (bytes : List Byte) : List Answer := bytes.map Answer.byte

/-! ## The macro-operations (R111) -/

/-- The operation traces of `SYNC`, with `true` for the result `Ok`. -/
inductive SyncTrace : List Instr → Bool → Prop where
  | done : SyncTrace [.scanDone] true
  | fail : SyncTrace [.scanFail] false
  | hit (l : List Instr) (r : Bool) (h : SyncTrace l r) : SyncTrace (.scanMatch :: l) r
  | miss (l : List Instr) (r : Bool) (h : SyncTrace l r) : SyncTrace (.scanMiss :: l) r
  | wait (l : List Instr) (r : Bool) (h : SyncTrace l r) : SyncTrace (.waitScan :: l) r

/-- The operation traces of `READ_FRAME` for `n` bytes still to read, with `true` for `Ok`. -/
inductive ReadFrameTrace : Nat → List Instr → Bool → Prop where
  | done : ReadFrameTrace 0 [.readDone] true
  | fail (n : Nat) : ReadFrameTrace (n + 1) [.readFail] false
  | wait (n : Nat) (l : List Instr) (r : Bool) (h : ReadFrameTrace (n + 1) l r) :
      ReadFrameTrace (n + 1) (.waitRead :: l) r
  | store (n : Nat) (l : List Instr) (r : Bool) (h : ReadFrameTrace n l r) :
      ReadFrameTrace (n + 1) (.readStore :: l) r

/-- The operation traces of the end of an iteration: `WAIT.SHOW`* `PIPE.SHOW`, or `PIPE.SKIP`. -/
inductive HandOverTrace : Nat → List Instr → Prop where
  | skip : HandOverTrace 0 [.pipeSkip]
  | shown (n : Nat) : HandOverTrace (n + 1) [.pipeShow]
  | wait (n : Nat) (l : List Instr) (h : HandOverTrace (n + 1) l) : HandOverTrace (n + 1) (.waitShow :: l)

/-- The operation traces of one `ITERATION` with frames of `n` bytes, with `true` for one that does not
fail: `SYNC`, then `READ_FRAME`, then the hand-over or skip, ending early where one of the first two
fails. -/
inductive IterationTrace (n : Nat) : List Instr → Bool → Prop where
  | noSync (a : List Instr) (ha : SyncTrace a false) : IterationTrace n a false
  | noFrame (a b : List Instr) (ha : SyncTrace a true) (hb : ReadFrameTrace n b false) :
      IterationTrace n (a ++ b) false
  | whole (a b c : List Instr) (ha : SyncTrace a true) (hb : ReadFrameTrace n b true)
      (hc : HandOverTrace n c) : IterationTrace n (a ++ b ++ c) true

/-- The operation traces of `ITERATION` repeated until one fails, then `HALT`, with `false` once one
has failed: the driver loop, "looping forever". -/
inductive LoopTrace (n : Nat) : List Instr → Bool → Prop where
  | start : LoopTrace n [] true
  | iterate (a l : List Instr) (r : Bool) (ha : IterationTrace n a true) (hl : LoopTrace n l r) :
      LoopTrace n (a ++ l) r
  | failed (a : List Instr) (halts : Nat) (ha : IterationTrace n a false) :
      LoopTrace n (a ++ List.replicate halts .halt) false

/-- The operation traces of `RUN` up to the end of an iteration (`true`), or with any number of its
endless `HALT`s (`false`): `RESET`, then the loop. -/
inductive RunTrace (n : Nat) : List Instr → Bool → Prop where
  | intro (l : List Instr) (r : Bool) (hl : LoopTrace n l r) : RunTrace n (.reset :: l) r

/-- `l` is how a `RUN` begins. `RUN` has no end, so its operations are known by its beginnings. -/
def RunBeginning (n : Nat) (l : List Instr) : Prop := ∃ rest r, RunTrace n (l ++ rest) r

/-- The operations an `ITERATION` ends with: the hand-over, the skip and the two failures. -/
def endsIteration (i : Instr) : Bool :=
  decide (i = .pipeShow ∨ i = .pipeSkip ∨ i = .scanFail ∨ i = .readFail)

/-! ## Runs of the step function -/

/-- The state of R40 with given parameters, configuration and environment, nothing observed yet. -/
def State.start (p : Build) (c : Config) (env : Env) : State :=
  { State.reset with build := p, cfg := c, env := env }

/-- `n` steps, ending early at a stop. -/
def runSteps : Nat → State → Result
  | 0, s => .next s
  | n + 1, s =>
    match step s with
    | .next t => runSteps n t
    | .fault f => .fault f
    | .refused r => .refused r

/-- `n` steps, all of them with a next state: the operations executed and the last state. -/
def runOps : Nat → State → Option (List Instr × State)
  | 0, s => some ([], s)
  | n + 1, s =>
    match s.selected, step s with
    | .ok i, .next t => (runOps n t).map fun r => (i :: r.1, r.2)
    | _, _ => none

/-- The answers of a stimulus program, in order. -/
def answersOf (items : List Item) : List Answer :=
  items.filterMap fun i => match i with
    | .answer a => some a
    | .ack => none
    | .idle _ => none
    | .reset => none

/-- The program holds answers of the Byte Source and idle steps only, and the interface can carry
them. -/
def plainStimulus (p : Build) (items : List Item) : Bool :=
  items.all fun i => match i with
    | .answer a => a.wf p
    | .ack => false
    | .idle _ => true
    | .reset => false

end Sys2Proof.Machine
end

