-- ==== Sys2Proof/Safety.lean ====
section
/-! DEFINITION. What a good state is: the table of reachable states (spec/10_state.md R41), the clean
state between iterations (R39), and the duties of the environment that statements name (R46, R250). -/

namespace Sys2Proof.Machine

/-- The written cells are exactly `0 .. k-1`, listed in order: "cell `i` written exactly when
`i < k`" (R41). -/
abbrev State.filledTo (s : State) (k : Nat) : Prop := s.fb.map Prod.fst = List.range k

/-- `|SKIPPED| <= SKIP_CAP` (R41). -/
abbrev State.skippedFits (s : State) : Prop := atMost s.skipped.length s.build.skipCap = true

/-- The `SYNCING` row of R41, `ERR` apart. -/
abbrev State.SyncingRow (s : State) : Prop :=
  s.progress ≤ s.markerLen ∧ s.skippedFits ∧ s.count = 0 ∧ s.fb = []

/-- The `READING` row of R41, `ERR` apart. -/
abbrev State.ReadingRow (s : State) : Prop :=
  s.progress = 0 ∧ s.skipped = [] ∧ s.count ≤ s.frameLen ∧ s.filledTo s.count

/-- The table of reachable states (R41); outside `FAILED`, `ERR` is all zero (R36, R39), and `ERR.CODE`
always fits in `ERR_BITS` bits (R36). -/
structure State.Inv (s : State) : Prop where
  codeFits : s.err.code < 2 ^ s.build.errBits
  syncing : s.phase = .syncing → s.SyncingRow ∧ s.err = Err.clear
  reading : s.phase = .reading → s.ReadingRow ∧ s.err = Err.clear
  display : s.phase = .display → s.ReadingRow ∧ s.count = s.frameLen ∧ 0 < s.frameLen ∧ s.err = Err.clear
  skip : s.phase = .skip → s.ReadingRow ∧ s.frameLen = 0 ∧ s.err = Err.clear
  failed : s.phase = .failed →
    (s.err.cause = .syncIo ∧ s.SyncingRow ∧ s.progress < s.markerLen) ∨
    (s.err.cause = .readIo ∧ s.ReadingRow ∧ s.count < s.frameLen)

/-- The six state elements are those of the reset state (R39, R40). -/
abbrev State.Clean (s : State) : Prop :=
  s.phase = .syncing ∧ s.progress = 0 ∧ s.skipped = [] ∧ s.count = 0 ∧ s.fb = [] ∧ s.err = Err.clear

/-- The six architectural state elements (R20) of two states agree. -/
abbrev State.SameRegisters (s t : State) : Prop :=
  t.phase = s.phase ∧ t.progress = s.progress ∧ t.skipped = s.skipped ∧ t.count = s.count ∧
    t.fb = s.fb ∧ t.err = s.err

/-- The parameters, the configuration and the environment's kind do not move without a reset (R37). -/
abbrev State.SameConfig (s t : State) : Prop := t.build = s.build ∧ t.cfg = s.cfg

/-- No step asserts `rst` or changes the configuration in the inputs still to come (R217). -/
def Env.quiet : Env → Bool
  | .inputs l => l.all fun x => !x.rst && decide (x.cfg = none)
  | .program items _ => items.all fun i => decide (i ≠ .reset)

end Sys2Proof.Machine
end

