-- ==== Sys2Proof/Certificates/Slice0/Obligations.lean ====
section
/-! DEFINITION. The statements for the provers, from the numbered rules of spec/. -/

open Sys2Proof Sys2Proof.Machine

/-! ## The operations, one by one

In these statements `env := t.env` leaves open only where the following inputs come from, which is the
model's own (log entry 2): `EnvironmentMovesByOperation` says it. -/

/-- R121: `SCAN.MATCH` consumes the byte and advances `PROGRESS`; nothing else of the state changes. At
the last marker byte `PROGRESS` is `L`, the read request falls and terminal count is reached. -/
def Obligations.ScanMatchAdvancesProgress : Prop :=
  ∀ (s : State) (b : Byte), s.Running → s.phase = .syncing → s.progress < s.markerLen →
    s.input.src = some (.byte b) → s.expected = some b →
    s.opsel = 0x06 ∧
    ∃ t, exec .scanMatch s = .next t ∧
      t = { s with progress := s.progress + 1,
                   env := t.env, consumed := s.consumed + 1, answered := true } ∧
      t.progress ≤ t.markerLen ∧
      (s.progress + 1 = s.markerLen → t.requesting = false ∧ t.tc = true)

/-- R122: `SCAN.MISS` consumes the byte, returns `PROGRESS` to 0 and logs this one byte unless the
accumulator is full; the byte is not compared with `MARKER[0]`. Nothing else of the state changes. -/
def Obligations.ScanMissRestartsAtZero : Prop :=
  ∀ (s : State) (b : Byte), s.Running → s.phase = .syncing → s.progress < s.markerLen →
    s.input.src = some (.byte b) → s.expected ≠ some b →
    s.opsel = 0x04 ∧
    ∃ t, exec .scanMiss s = .next t ∧
      t = { s with progress := 0,
                   skipped := if atMost (s.skipped.length + 1) s.build.skipCap then s.skipped ++ [b]
                              else s.skipped,
                   env := t.env, consumed := s.consumed + 1, answered := true } ∧
      t.skipNonempty = true

/-- R123: `SCAN.DONE` emits the log if anything was skipped, empties the accumulator, and enters
`READING` with `PROGRESS = COUNT = 0`; whatever is on offer is not taken. Nothing else of the state
changes, and an empty frame is complete at once. -/
def Obligations.ScanDoneEntersReading : Prop :=
  ∀ (s : State), s.Running → s.phase = .syncing → s.progress = s.markerLen →
    s.opsel = 0x01 ∧
    ∃ t, exec .scanDone s = .next t ∧
      t = { s with skipped := [], progress := 0, count := 0, phase := .reading,
                   out := s.out ++ (if s.skipped = [] then [] else [Event.log s.skipped]),
                   env := t.env, answered := false } ∧
      t.skipNonempty = false ∧ (s.frameLen = 0 → t.tc = true)

/-- R124 and R201: `SCAN.FAIL` records `SYNC_IO` and the sub-code, enters `FAILED` and emits `FAIL`; no
`LOG`, no byte consumed, and nothing else of the state changes. -/
def Obligations.ScanFailRecordsSyncIo : Prop :=
  ∀ (s : State) (c : Nat), s.Running → s.phase = .syncing → s.progress < s.markerLen →
    s.input.src = some (.err c) →
    s.opsel = 0x08 ∧
    ∃ t, exec .scanFail s = .next t ∧
      t = { s with err := { cause := .syncIo, code := c }, phase := .failed,
                   out := s.out ++ [Event.fail .syncIo c],
                   env := t.env, answered := true } ∧
      t.failed = true ∧ t.inReady false = false ∧ (t.pins false).frameValid = false

/-- R125: `WAIT.SCAN` changes no state element, emits nothing and consumes nothing. -/
def Obligations.WaitScanChangesNothing : Prop :=
  ∀ (s : State), s.Running → s.phase = .syncing → s.progress < s.markerLen → s.input.src = none →
    s.opsel = 0x00 ∧
    ∃ t, exec .waitScan s = .next t ∧ t = { s with env := t.env, answered := false }

/-- R141: `READ.STORE` puts the byte into `FB[COUNT]`, leaves every other cell as it was, and advances
`COUNT`; nothing else of the state changes. At the last byte the read request falls and terminal count
is reached. -/
def Obligations.ReadStoreWritesOneCell : Prop :=
  ∀ (s : State) (b : Byte), s.Running → s.phase = .reading → s.count < s.frameLen →
    s.input.src = some (.byte b) →
    s.opsel = 0x14 ∧
    ∃ t, exec .readStore s = .next t ∧
      fbRead t.fb s.count = some b ∧
      (∀ a, a ≠ s.count → fbRead t.fb a = fbRead s.fb a) ∧
      t = { s with fb := t.fb, count := s.count + 1,
                   env := t.env, consumed := s.consumed + 1, answered := true } ∧
      t.count ≤ t.frameLen ∧
      (s.count + 1 = s.frameLen → t.requesting = false ∧ t.tc = true)

/-- R142: `READ.DONE` goes to `SKIP` when `N = 0` and to `DISPLAY` otherwise; whatever is on offer is
not taken, and nothing else of the state changes. -/
def Obligations.ReadDoneChoosesDisplayOrSkip : Prop :=
  ∀ (s : State), s.Running → s.phase = .reading → s.count = s.frameLen →
    s.opsel = 0x11 ∧
    ∃ t, exec .readDone s = .next t ∧
      t = { s with phase := if s.frameLen = 0 then Phase.skip else Phase.display,
                   env := t.env, answered := false } ∧
      (t.pins false).frameValid = decide (0 < s.frameLen)

/-- R143 and R202: `READ.FAIL` records `READ_IO` and the sub-code, enters `FAILED` and emits `FAIL`;
`COUNT` and the stored bytes stay, and nothing else of the state changes. -/
def Obligations.ReadFailRecordsReadIo : Prop :=
  ∀ (s : State) (c : Nat), s.Running → s.phase = .reading → s.count < s.frameLen →
    s.input.src = some (.err c) →
    s.opsel = 0x18 ∧
    ∃ t, exec .readFail s = .next t ∧
      t = { s with err := { cause := .readIo, code := c }, phase := .failed,
                   out := s.out ++ [Event.fail .readIo c],
                   env := t.env, answered := true } ∧
      t.failed = true ∧ t.inReady false = false ∧ (t.pins false).frameValid = false

/-- R144: `WAIT.READ` changes no state element, emits nothing and consumes nothing. -/
def Obligations.WaitReadChangesNothing : Prop :=
  ∀ (s : State), s.Running → s.phase = .reading → s.count < s.frameLen → s.input.src = none →
    s.opsel = 0x10 ∧
    ∃ t, exec .waitRead s = .next t ∧ t = { s with env := t.env, answered := false }

/-- R161: `PIPE.SHOW` emits the frame by value, byte `i` of the event being cell `i`, releases the
buffer, and starts the next iteration; `ERR` and everything else stay. With `ERR` zero the state after
it is the clean one, and a read request is outstanding. -/
def Obligations.PipeShowHandsOverFrame : Prop :=
  ∀ (s : State), s.Running → s.phase = .display → s.input.ack = true →
    (∀ i, i < s.frameLen → (fbRead s.fb i).isSome = true) →
    s.opsel = 0x2C ∧
    ∃ bytes t, exec .pipeShow s = .next t ∧
      bytes.length = s.frameLen ∧
      (∀ i, i < s.frameLen → bytes[i]? = fbRead s.fb i) ∧
      t = { s with fb := [], count := 0, progress := 0, skipped := [], phase := .syncing,
                   out := s.out ++ [Event.frame s.cfg.width s.cfg.height bytes],
                   env := t.env, answered := false } ∧
      (s.err = Err.clear → t.Clean) ∧ t.requesting = true

/-- R62: where a cell of the presented frame holds no value, building the frame is a fault. No reachable
state is of this kind (`RunningStepCompletes`). -/
def Obligations.PipeShowFaultsOnUnwrittenCell : Prop :=
  ∀ (s : State) (i : Nat), s.Running → s.phase = .display → s.input.ack = true →
    i < s.frameLen → fbRead s.fb i = none →
    exec .pipeShow s = .fault .unwrittenCell

/-- R162: `WAIT.SHOW` changes no state element, emits nothing and consumes nothing; the frame stays
presented and no read is requested. -/
def Obligations.WaitShowChangesNothing : Prop :=
  ∀ (s : State), s.Running → s.phase = .display → s.input.ack = false →
    s.opsel = 0x20 ∧
    ∃ t, exec .waitShow s = .next t ∧
      t = { s with env := t.env, answered := false } ∧
      t.inReady false = false ∧ (t.pins false).frameValid = true

/-- R163: `PIPE.SKIP` starts the next iteration without an event; `FB`, `ERR` and everything else
stay. -/
def Obligations.PipeSkipStartsNextIteration : Prop :=
  ∀ (s : State), s.Running → s.phase = .skip →
    s.opsel = 0x30 ∧
    ∃ t, exec .pipeSkip s = .next t ∧
      t = { s with count := 0, progress := 0, skipped := [], phase := .syncing,
                   env := t.env, answered := false }

/-- R164: `HALT` changes no state element, emits nothing and consumes nothing, whatever is offered. -/
def Obligations.HaltChangesNothing : Prop :=
  ∀ (s : State), s.Running → s.phase = .failed →
    s.opsel = 0x40 ∧
    ∃ t, exec .halt s = .next t ∧
      t = { s with env := t.env, answered := false } ∧
      t.inReady false = false ∧ (t.pins false).frameValid = false ∧ (t.pins false).fail = true

/-- R165 and R240: with `rst = 1` the step is `RESET` from every phase and whatever the other inputs
are; the six elements take their reset values, and nothing is emitted or consumed. That `RESET` also
takes over the configuration its buses show is the model's choice (log entry 3): the pseudocode of R165
writes the six elements only, and R80 only lets the configuration change in reset. -/
def Obligations.ResetRestoresInitialState : Prop :=
  ∀ (s : State), s.input.rst = true →
    decodeSel s.opsel = some .reset ∧ s.inReady true = false ∧ step s = exec .reset s ∧
    ∃ t, exec .reset s = .next t ∧
      t = { s with phase := .syncing, progress := 0, skipped := [], count := 0, fb := [],
                   err := { cause := .none, code := 0 }, cfg := s.input.cfg.getD s.cfg,
                   env := t.env, answered := false }

/-! ## The selector and the step -/

/-- R173: when the selector of the step decodes to `i`, and the step is a reset or at run time in its
legal domain, the step is `exec i`. -/
def Obligations.StepRunsSelectedOperation : Prop :=
  ∀ (s : State) (i : Instr), decodeSel s.opsel = some i → (s.input.rst = true ∨ s.Running) →
    step s = exec i s

/-- R37, R107 and R249: a run whose configuration changes or is not legal is refused. The rest is the
model's choice: that build parameters outside the constraints of R7 are refused too, and which of several
reasons is answered (log entry 4), and that an error sub-code too wide is refused (log entry 5). -/
def Obligations.StepRefusesIllegalRuns : Prop :=
  ∀ (s : State), s.input.rst = false → ¬ s.Running →
    step s = .refused (if s.cfgStable = false then .configChanged
                       else if s.cfgLegal = false then .illegalConfig else .illegalInput)

/-- R209: the order of precedence within a step. In every state and for every input exactly this
operation is selected, so no reserved selector value is ever produced (R104, R105). The two clauses for
a counter past its end (`L < PROGRESS` selects `WAIT.SCAN`, `N < COUNT` selects `WAIT.READ`) are the
model's choice (log entry 10): R41 says that no rule gives such a state a meaning. -/
def Obligations.SelectionFollowsPrecedence : Prop :=
  ∀ (s : State), decodeSel s.opsel = some (
    if s.input.rst = true then Instr.reset
    else if s.phase = .failed then Instr.halt
    else if s.phase = .skip then Instr.pipeSkip
    else if s.phase = .display then (if s.input.ack = true then Instr.pipeShow else Instr.waitShow)
    else if s.phase = .syncing then
      (if s.progress = s.markerLen then Instr.scanDone
       else if s.markerLen < s.progress then Instr.waitScan
       else match s.input.src with
         | some (.err _) => Instr.scanFail
         | some (.byte b) => if s.expected = some b then Instr.scanMatch else Instr.scanMiss
         | none => Instr.waitScan)
    else
      (if s.count = s.frameLen then Instr.readDone
       else if s.frameLen < s.count then Instr.waitRead
       else match s.input.src with
         | some (.err _) => Instr.readFail
         | some (.byte _) => Instr.readStore
         | none => Instr.waitRead))

/-- R27: the phase before and after each operation; an operation executes in no other phase. -/
def Obligations.PhaseTransitionTable : Prop :=
  ∀ (i : Instr) (s t : State), exec i s = .next t →
    match i with
    | .scanMatch => s.phase = .syncing ∧ t.phase = .syncing
    | .scanMiss => s.phase = .syncing ∧ t.phase = .syncing
    | .waitScan => s.phase = .syncing ∧ t.phase = .syncing
    | .scanDone => s.phase = .syncing ∧ t.phase = .reading
    | .scanFail => s.phase = .syncing ∧ t.phase = .failed
    | .readStore => s.phase = .reading ∧ t.phase = .reading
    | .waitRead => s.phase = .reading ∧ t.phase = .reading
    | .readDone => s.phase = .reading ∧
        (0 < s.frameLen → t.phase = .display) ∧ (s.frameLen = 0 → t.phase = .skip)
    | .readFail => s.phase = .reading ∧ t.phase = .failed
    | .pipeShow => s.phase = .display ∧ t.phase = .syncing
    | .waitShow => s.phase = .display ∧ t.phase = .display
    | .pipeSkip => s.phase = .skip ∧ t.phase = .syncing
    | .halt => s.phase = .failed ∧ t.phase = .failed
    | .reset => t.phase = .syncing

/-- R172: the output event of each operation, the complete list; at most one a step. -/
def Obligations.EventsByOperation : Prop :=
  ∀ (i : Instr) (s t : State), exec i s = .next t →
    match i with
    | .scanDone => t.out = s.out ++ (if s.skipped = [] then [] else [Event.log s.skipped])
    | .pipeShow => ∃ bytes, t.out = s.out ++ [Event.frame s.cfg.width s.cfg.height bytes]
    | .scanFail => ∃ c, t.out = s.out ++ [Event.fail .syncIo c]
    | .readFail => ∃ c, t.out = s.out ++ [Event.fail .readIo c]
    | .reset => t.out = s.out
    | .scanMatch => t.out = s.out
    | .scanMiss => t.out = s.out
    | .waitScan => t.out = s.out
    | .readStore => t.out = s.out
    | .readDone => t.out = s.out
    | .waitRead => t.out = s.out
    | .waitShow => t.out = s.out
    | .pipeSkip => t.out = s.out
    | .halt => t.out = s.out

/-- R28 and R173: `SCAN.MATCH`, `SCAN.MISS` and `READ.STORE` consume one byte each and every other
operation none; the Byte Source's answer is taken by those three and by the two failing ones. -/
def Obligations.BytesConsumedByOperation : Prop :=
  ∀ (i : Instr) (s t : State), exec i s = .next t →
    t.consumed = s.consumed + (if i = .scanMatch ∨ i = .scanMiss ∨ i = .readStore then 1 else 0) ∧
    (t.answered = true ↔
      i = .scanMatch ∨ i = .scanMiss ∨ i = .readStore ∨ i = .scanFail ∨ i = .readFail)

/-- The model's environment (log entries 2 and 12): an input record belongs to the one step, and a stimulus
item goes when its answer, acknowledgement, idle step or reset has been used. -/
def Obligations.EnvironmentMovesByOperation : Prop :=
  ∀ (i : Instr) (s t : State), exec i s = .next t →
    t.env = match i with
      | .scanMatch => s.env.after .byte
      | .scanMiss => s.env.after .byte
      | .readStore => s.env.after .byte
      | .scanFail => s.env.after .error
      | .readFail => s.env.after .error
      | .pipeShow => s.env.after .ack
      | .reset => s.env.after .nothing
      | .scanDone => s.env.after .nothing
      | .waitScan => s.env.after .nothing
      | .readDone => s.env.after .nothing
      | .waitRead => s.env.after .nothing
      | .waitShow => s.env.after .nothing
      | .pipeSkip => s.env.after .nothing
      | .halt => s.env.after .nothing

/-- R262: FSYNC does not wait when its collaborator has answered. -/
def Obligations.NeverWaitsWhenAnswered : Prop :=
  ∀ (s : State), s.Running →
    ((s.inReady false = true ∧ s.input.src ≠ none) ∨
      ((s.pins false).frameValid = true ∧ s.input.ack = true)) →
    ∃ i, s.selected = .ok i ∧ i ≠ .waitScan ∧ i ≠ .waitRead ∧ i ≠ .waitShow

/-! ## The encoding -/

/-- R103 and R105: the decoder, on bytes, reads back what the encoder writes, refuses the reserved
values by name and an empty input by another, and every byte after the selector is left alone. -/
def Obligations.DecodeEncodeAgree : Prop :=
  (∀ (i : Instr) (rest : List Byte), decode (encode i ++ rest) = .ok (i, rest)) ∧
  (∀ (w : OpSel) (i : Instr) (rest tail : List Byte), decode (w :: rest) = .ok (i, tail) → tail = rest) ∧
  decode [] = .error .truncated

/-- R105: the 60 reserved selector values, and no other, select nothing. -/
def Obligations.ReservedSelectorsRefused : Prop :=
  ∀ w : Fin 256, decodeTableWord 8 w.val = none ↔
    (w.val = 0x0C ∨ w.val = 0x0E ∨ w.val = 0x1C ∨ w.val = 0x1E ∨
      (0x24 ≤ w.val ∧ w.val ≤ 0x2B) ∨ (0x50 ≤ w.val ∧ w.val ≤ 0x7F))

/-- R102 and R104: no two rows of the operation map match one selector value, and the decoder answers
the operation of the row that matches. -/
def Obligations.OperationMapDisjoint : Prop :=
  ∀ (w : OpSel) (r q : OpRow), r ∈ opMap → q ∈ opMap → r.matches w = true → q.matches w = true →
    r = q ∧ decodeSel w = some r.instr

/-- R103: words written out from the operation map, one or more of each family, decode to their
operations. -/
def Obligations.WrittenWordsDecode : Prop :=
  decodeTableWord 8 0x06 = some .scanMatch ∧ decodeTableWord 8 0x04 = some .scanMiss ∧
  decodeTableWord 8 0x0F = some .scanDone ∧ decodeTableWord 8 0x0A = some .scanFail ∧
  decodeTableWord 8 0x16 = some .readStore ∧ decodeTableWord 8 0x1F = some .readDone ∧
  decodeTableWord 8 0x2F = some .pipeShow ∧ decodeTableWord 8 0x3F = some .pipeSkip ∧
  decodeTableWord 8 0x4F = some .halt ∧ decodeTableWord 8 0x94 = some .reset

/-- R101: the selector's fields stand at the bits the rule gives, and none is lost. -/
def Obligations.SelectorFieldPositions : Prop :=
  ∀ f : Selector,
    f.bits.getLsbD 7 = f.rst ∧ f.bits.extractLsb' 4 3 = f.phase.code ∧
    f.bits.extractLsb' 2 2 = f.ev.code ∧ f.bits.getLsbD 1 = f.eq ∧ f.bits.getLsbD 0 = f.tc ∧
    Selector.ofBits f.bits = some f

/-- The model's placing of an operation (log entry 11): in every legal configuration, every selector
value that decodes to `i` is placed so that the next step selects `i` and completes; a reserved value
(R105) places nothing, in any state. -/
def Obligations.PlacedWordExecutes : Prop :=
  (∀ (s : State) (w : Nat) (i : Instr), w < 256 → s.cfgLegal = true → decodeTableWord 8 w = some i →
    (s.withFetchWord 8 w).selected = .ok i ∧ ∃ t, step (s.withFetchWord 8 w) = .next t) ∧
  ∀ (s : State) (w : Nat), w < 256 → decodeTableWord 8 w = none → s.withFetchWord 8 w = s

/-! ## Invariants and whole-machine rules -/

/-- R40, R41: the state after reset is clean, and every clean state satisfies the table of reachable
states. -/
def Obligations.ResetStateSatisfiesInv : Prop :=
  State.reset.Clean ∧ ∀ s : State, s.Clean → s.Inv

/-- R41: every step keeps the table of reachable states. -/
def Obligations.EveryStepKeepsInv : Prop :=
  ∀ s t : State, s.Inv → step s = .next t → t.Inv

/-- R173 and R62: the step function is total on the states of R41, so no fault is reachable. -/
def Obligations.RunningStepCompletes : Prop :=
  ∀ s : State, s.Inv → (s.input.rst = true ∨ s.Running) → ∃ t, step s = .next t

/-- Every step keeps the Frame Buffer's canonical form, in every state: the listed cells lie below `N`
(the index range of R74) and rise strictly. That the buffer is such a list, an unlisted cell holding no
value, is the model's choice (log entry 9). -/
def Obligations.EveryStepKeepsBufferForm : Prop :=
  ∀ s t : State, Memory.wf s.frameLen s.fb = true → step s = .next t → Memory.wf t.frameLen t.fb = true

/-- R37, R80: at run time the configuration does not move. The build parameters never move. That a
reset takes over the configuration its buses show is the model's choice (log entry 3): the pseudocode of
R165 writes the six elements only, and R80 only lets the configuration change in reset. -/
def Obligations.ConfigurationMovesOnlyInReset : Prop :=
  ∀ s t : State, step s = .next t →
    t.build = s.build ∧ (s.input.rst = false → t.cfg = s.cfg) ∧
    (s.input.rst = true → t.cfg = s.input.cfg.getD s.cfg)

/-- R39: whenever `PHASE` becomes `SYNCING`, by `PIPE.SHOW`, `PIPE.SKIP` or `RESET`, the six elements are
those of the reset state. -/
def Obligations.IterationsStartClean : Prop :=
  ∀ s t : State, s.Inv → step s = .next t → t.phase = .syncing →
    (s.phase ≠ .syncing ∨ s.input.rst = true) → t.Clean

/-- R214: only `RESET` leaves `FAILED`, and it starts from the clean state. -/
def Obligations.OnlyResetLeavesFailed : Prop :=
  ∀ s t : State, s.phase = .failed → step s = .next t → t.phase ≠ .failed →
    s.input.rst = true ∧ t.Clean

/-- R210, R215: once failed, and until a reset, every run completes, executes only `HALT`, and changes
neither the six elements nor the output: no second failure, `ERR` keeps the first. -/
def Obligations.FailedStaysSilentUntilReset : Prop :=
  ∀ (n : Nat) (s : State), s.phase = .failed → s.cfgLegal = true → s.env.quiet = true →
    ∃ t, runOps n s = some (List.replicate n .halt, t) ∧
      s.SameRegisters t ∧ t.out = s.out ∧ t.consumed = s.consumed

/-- R226: all state survives any length of waiting, in a read, in the display call or in `FAILED`. That an
environment with no input left offers nothing is the model's choice (log entry 2). -/
def Obligations.WaitingPreservesState : Prop :=
  ∀ (n : Nat) (s : State), s.env = .inputs [] → s.cfgLegal = true →
    (s.requesting = true ∨ s.phase = .display ∨ s.phase = .failed) →
    ∃ t, runSteps n s = .next t ∧ s.SameRegisters t ∧ s.SameConfig t ∧
      t.out = s.out ∧ t.consumed = s.consumed

/-- R44, R206: a byte or an error on offer while no read request is outstanding, or during reset, has no
effect: any other offer in its place gives the same step. -/
def Obligations.UnsolicitedAnswerIgnored : Prop :=
  ∀ (s : State) (x : In) (l : List In) (other : Option Answer), s.env = .inputs (x :: l) →
    s.inReady x.rst = false →
    step { s with env := .inputs ({ x with src := other } :: l) } = step s

/-- R46 (d), R206: an acknowledgement outside `DISPLAY`, or during reset, has no effect. -/
def Obligations.UnsolicitedAckIgnored : Prop :=
  ∀ (s : State) (x : In) (l : List In) (other : Bool), s.env = .inputs (x :: l) →
    (s.phase ≠ .display ∨ x.rst = true) →
    step { s with env := .inputs ({ x with ack := other } :: l) } = step s

/-- R25: what has been observed influences no operation: another observation in its place gives the same
step, with the same event and the same count of bytes added to it. -/
def Obligations.ObservationInfluencesNothing : Prop :=
  ∀ (s t : State) (o : List Event) (k : Nat) (a : Bool), step s = .next t →
    ∃ new d, t.out = s.out ++ new ∧ t.consumed = s.consumed + d ∧
      step { s with out := o, consumed := k, answered := a } =
        .next { t with out := o ++ new, consumed := k + d }

/-- R146, R161: a `FRAME` event carries `WIDTH`, `HEIGHT` and exactly `N > 0` bytes, byte `i` being
cell `i`. -/
def Obligations.FrameEventsAreComplete : Prop :=
  ∀ (s t : State) (w h : Nat) (bytes : List Byte), s.Inv → step s = .next t →
    t.out = s.out ++ [Event.frame w h bytes] →
    w = s.cfg.width ∧ h = s.cfg.height ∧ bytes.length = s.frameLen ∧ 0 < s.frameLen ∧
    ∀ i, i < s.frameLen → bytes[i]? = fbRead s.fb i

/-- R145: with `N = 0` no run emits a `FRAME` event. -/
def Obligations.EmptyGeometryShowsNothing : Prop :=
  ∀ (n : Nat) (s t : State), s.Inv → s.frameLen = 0 → s.env.quiet = true → runSteps n s = .next t →
    ∀ w h bytes, Event.frame w h bytes ∈ t.out → Event.frame w h bytes ∈ s.out

/-- R46 (a), R250: a stimulus program keeps an answer on offer until FSYNC takes it. The stimulus program as
an environment is the model's choice (log entries 2 and 12). -/
def Obligations.StimulusHoldsUntakenAnswer : Prop :=
  ∀ (s t : State) (items : List Item) (prompt : Bool) (a : Answer), s.env = .program items prompt →
    s.input.src = some a → step s = .next t → t.answered = false → t.input.src = some a

/-- R7, R16: the bounded counters hold every value the invariant allows, and `N` fits in `CNT_BITS`
bits, so nothing wraps. -/
def Obligations.CountersFitTheirRegisters : Prop :=
  ∀ s : State, s.Inv → s.cfgLegal = true →
    (∀ b, s.build.cntBits = some b → s.frameLen < 2 ^ b ∧ s.count < 2 ^ b) ∧
    (∀ b, s.build.progBits = some b → s.markerLen < 2 ^ b ∧ s.progress < 2 ^ b)

/-! ## The pins -/

/-- R44: when a read request is outstanding. -/
def Obligations.InReadyMeansReadOutstanding : Prop :=
  ∀ (s : State) (rst : Bool), s.inReady rst = true ↔
    rst = false ∧ ((s.phase = .syncing ∧ s.progress < s.markerLen) ∨
                   (s.phase = .reading ∧ s.count < s.frameLen))

/-- R43: `log_valid` is 1 exactly in the step that selects `SCAN.DONE` with a non-empty accumulator. -/
def Obligations.LogValidMarksLoggingStep : Prop :=
  ∀ s : State, s.logValid s.input.rst = true ↔
    (decodeSel s.opsel = some .scanDone ∧ s.skipped ≠ [])

/-- R45: while a frame is presented, `fb_rdata` is the byte of the cell it is asked for. That `N` is the
held configuration's in a reset step that shows a new one too is the model's choice (log entry 19). -/
def Obligations.ReadPortShowsPresentedFrame : Prop :=
  ∀ (s : State) (raddr draw : Nat), s.Inv → s.phase = .display → raddr < s.frameLen →
    ∃ b, fbRead s.fb raddr = some b ∧ s.fbRdata raddr draw = .ok b

/-- R42: how the step input is read off the pins; an error wins over a byte. -/
def Obligations.PinsGiveStepInput : Prop :=
  ∀ p : PinsIn, p.input.rst = p.rst ∧ p.input.ack = p.frameReady ∧
    p.input.src = (if p.inErr = true then some (Answer.err p.inErrcode)
                   else if p.inValid = true then some (Answer.byte p.inData) else none)

/-! ## The scanner and the reader as functions of the stream -/

/-- R126: in `SYNCING` with a read outstanding, every byte moves the scanner by `delta`, and is logged
exactly when it mismatches. -/
def Obligations.ScannerFollowsDelta : Prop :=
  ∀ (s : State) (b : Byte), s.Running → s.phase = .syncing → s.progress < s.markerLen →
    s.input.src = some (.byte b) →
    ∃ t, step s = .next t ∧ t.phase = .syncing ∧
      t.progress = scanDelta s.cfg.marker s.progress b ∧
      t.skipped = (if s.cfg.marker[s.progress]? = some b then s.skipped
                   else appendSkipped s.build.skipCap s.skipped b)

/-- R128: when `sync` succeeds, the last `L` bytes it consumed are the marker. -/
def Obligations.SyncSuccessEndsWithMarker : Prop :=
  ∀ (marker : List Byte) (cap : Option Nat) (answers : List Answer) (used : Nat) (skipped : List Byte),
    sync marker cap answers = .ok used skipped →
    marker.length ≤ used ∧
    (answers.take used).drop (used - marker.length) = byteAnswers marker

/-- R129: `sync` finds an occurrence of the marker at offset `k` if and only if `k` is a restart
point. -/
def Obligations.SyncFindsMarkerAtRestartPoints : Prop :=
  ∀ (marker s : List Byte) (cap : Option Nat) (k : Nat), 0 < marker.length →
    ((∃ skipped, sync marker cap (byteAnswers s) = .ok (k + marker.length) skipped) ↔
      (∃ ms, RestartPoint marker s k ms) ∧ greedy marker (s.drop k) = marker.length)

/-- R130: on success the log is the sequence of mismatched bytes, one at the end of each abandoned
partial match, and the bytes consumed are `L`, the logged bytes and the abandoned partial matches. -/
def Obligations.SyncLogHoldsMismatchedBytes : Prop :=
  ∀ (marker s : List Byte) (used : Nat) (skipped : List Byte), 0 < marker.length →
    sync marker none (byteAnswers s) = .ok used skipped →
    ∃ ms : List Nat, RestartPoint marker s (used - marker.length) ms ∧
      used = marker.length + skipped.length + ms.sum ∧ skipped.length = ms.length ∧
      ∀ j, j < ms.length → skipped[j]? = s[(ms.take (j + 1)).sum + j]?

/-- R129 (b): if no byte before the first occurrence equals `MARKER[0]`, the occurrence is found and all
bytes before it are logged. -/
def Obligations.SyncFindsMarkerAfterPlainNoise : Prop :=
  ∀ (m : Byte) (ms noise rest : List Byte), m ∉ noise →
    sync (m :: ms) none (byteAnswers (noise ++ m :: ms ++ rest)) =
      .ok (noise.length + (m :: ms).length) noise

/-- R252 (c): a marker of `L` equal bytes is never missed: the first occurrence ends the attempt. -/
def Obligations.EqualByteMarkerNeverMissed : Prop :=
  ∀ (m : Byte) (len k : Nat) (s : List Byte) (cap : Option Nat), 0 < len →
    greedy (List.replicate len m) (s.drop k) = len →
    (∀ j, j < k → greedy (List.replicate len m) (s.drop j) < len) →
    ∃ skipped, sync (List.replicate len m) cap (byteAnswers s) = .ok (k + len) skipped

/-- R148: `read_frame` returns exactly the first `N` answers, all of them bytes, in order; and with
`N = 0` it succeeds on every list. -/
def Obligations.ReadFrameTakesExactlyN : Prop :=
  (∀ (n : Nat) (answers : List Answer) (used : Nat) (buf : List Byte),
    readFrameOf n answers = .ok used buf ↔
      used = n ∧ buf.length = n ∧ byteAnswers buf = answers.take n) ∧
  ∀ answers : List Answer, readFrameOf 0 answers = .ok 0 []

/-! ## Runs -/

/-- R171: for every legal configuration and every stimulus of answers and idle steps with a prompt sink,
stepping FSYNC from the reset state ends with exactly the output and the phase of the reference function
`run`, and stays so. Where the idle steps fall does not matter. The stimulus program as an environment is the
model's choice (log entries 2 and 12). -/
def Obligations.StepwiseRunAgreesWithReference : Prop :=
  ∀ (p : Build) (c : Config) (items : List Item), p.wf = true → c.wf p = true →
    plainStimulus p items = true →
    ∃ k, ∀ n, k ≤ n →
      ∃ t, runSteps n (State.start p c (.program items true)) = .next t ∧
        (t.out, t.phase) = referenceRun p.skipCap c (answersOf items)

/-- R65: a stream of the marker and exactly `N` bytes yields exactly one frame, those bytes in order, and
is consumed whole. The stimulus program as an environment is the model's choice (log entries 2 and 12). -/
def Obligations.CleanRecordYieldsItsPayload : Prop :=
  ∀ (p : Build) (c : Config) (payload : List Byte), p.wf = true → c.wf p = true →
    0 < c.frameLen → payload.length = c.frameLen →
    ∃ k, ∀ n, k ≤ n →
      ∃ t, runSteps n (State.start p c
          (.program ((c.marker ++ payload).map fun b => Item.answer (.byte b)) true)) = .next t ∧
        t.out = [Event.frame c.width c.height payload] ∧ t.consumed = c.mlen + c.frameLen

/-- R111: from a clean state, the operations up to and including the first hand-over, skip or failure
are one `ITERATION`: `SYNC`, `READ_FRAME` and the end of the iteration, or as far as the one that
fails. -/
def Obligations.IterationFollowsMacro : Prop :=
  ∀ (s t : State) (n : Nat) (l : List Instr) (last : Instr), s.Clean → s.env.quiet = true →
    runOps n s = some (l ++ [last], t) → endsIteration last = true →
    (∀ i, i ∈ l → endsIteration i = false) →
    IterationTrace s.frameLen (l ++ [last]) (decide (last = .pipeShow ∨ last = .pipeSkip))

/-- R111: the operations of every run that begins with a reset and has no other are a beginning of
`RUN`: `RESET`, `ITERATION` until one fails, then `HALT`. A run that has failed is `RUN` as far as its
`HALT`s. `N` is that of the configuration the reset takes over (log entry 3). -/
def Obligations.RunFollowsMacro : Prop :=
  ∀ (s t : State) (n : Nat) (l : List Instr), s.input.rst = true →
    (s.env.after .nothing).quiet = true → runOps n s = some (l, t) →
    RunBeginning s.shownCfg.frameLen l ∧
      (0 < n → t.phase = .failed → RunTrace s.shownCfg.frameLen l false)
end

