-- ==== Sys2Proof/Laws/Memory.lean ====
section
/-! SUPPORT. The Frame Buffer: reads after writes, and the canonical form every memory operation keeps. -/

namespace Sys2Proof.Machine

@[simp] theorem fbRead_nil (i : Nat) : fbRead [] i = none := rfl

theorem fbRead_fbWrite_same (cells : List Host.Cell) (i : Nat) (v : Byte) :
    fbRead (fbWrite cells i v) i = some v := by
  induction cells with
  | nil => simp [fbWrite, fbRead]
  | cons c rest ih =>
    obtain ⟨a, b⟩ := c
    unfold fbWrite
    split
    · simp [fbRead]
    · split
      · simp [fbRead]
      · have h : a ≠ i := fun e => by simp_all
        simp [fbRead, h, ih]

theorem fbRead_fbWrite_ne (cells : List Host.Cell) (i j : Nat) (v : Byte) (h : j ≠ i) :
    fbRead (fbWrite cells i v) j = fbRead cells j := by
  induction cells with
  | nil => simp [fbWrite, fbRead, Ne.symm h]
  | cons c rest ih =>
    obtain ⟨a, b⟩ := c
    unfold fbWrite
    split
    · simp [fbRead, Ne.symm h]
    · split
      · next e => subst e; simp [fbRead, Ne.symm h]
      · simp [fbRead, ih]

theorem fbOrdered_fbWrite (n : Nat) (cells : List Host.Cell) (i : Nat) (v : Byte) (hi : i < n) (lo : Nat)
    (hlo : lo ≤ i) (h : fbOrdered n lo cells = true) : fbOrdered n lo (fbWrite cells i v) = true := by
  induction cells generalizing lo with
  | nil => simp [fbWrite, fbOrdered, hi, hlo]
  | cons c rest ih =>
    obtain ⟨a, b⟩ := c
    simp only [fbOrdered, Bool.and_eq_true, decide_eq_true_eq] at h
    obtain ⟨⟨h1, h2⟩, h3⟩ := h
    unfold fbWrite
    split
    · next hlt => simp [fbOrdered, hi, hlo, h2, h3]; omega
    · split
      · next e => subst e; simp [fbOrdered, h1, h2, h3]
      · next hne hne' =>
        have hai : a + 1 ≤ i := by omega
        simp [fbOrdered, h1, h2, ih (a + 1) hai h3]

/-- The empty buffer has the canonical form. -/
@[simp] theorem Memory.wf_nil (n : Nat) : Memory.wf n [] = true := rfl

/-- A store to an existing cell keeps the canonical form. -/
theorem Memory.wf_fbWrite (n : Nat) (cells : List Host.Cell) (i : Nat) (v : Byte) (hi : i < n)
    (h : Memory.wf n cells = true) : Memory.wf n (fbWrite cells i v) = true :=
  fbOrdered_fbWrite n cells i v hi 0 (Nat.zero_le i) h

/-- The buffer at reset has the canonical form. -/
theorem reset_buffer_wf : Memory.wf State.reset.frameLen State.reset.fb = true := rfl

/-- A range of cells reads as a whole exactly when each of them holds a value. -/
theorem fbReadRange_eq_some (cells : List Host.Cell) (i k : Nat) (bytes : List Byte) :
    fbReadRange cells i k = some bytes ↔
      bytes.length = k ∧ ∀ j, j < k → fbRead cells (i + j) = bytes[j]? := by
  induction k generalizing i bytes with
  | zero =>
    cases bytes <;> simp [fbReadRange]
  | succ k ih =>
    constructor
    · intro h
      unfold fbReadRange at h
      split at h
      · next b bs hb hbs =>
        obtain ⟨hl, hr⟩ := (ih (i + 1) bs).mp hbs
        cases h
        refine ⟨by simp [hl], fun j hj => ?_⟩
        cases j with
        | zero => simpa using hb
        | succ j =>
          have := hr j (by omega)
          rw [show i + (j + 1) = i + 1 + j by omega]
          simpa using this
      · cases h
    · rintro ⟨hl, hr⟩
      cases bytes with
      | nil => simp at hl
      | cons b bs =>
        have h0 : fbRead cells i = some b := by simpa using hr 0 (by omega)
        have hs : fbReadRange cells (i + 1) k = some bs :=
          (ih (i + 1) bs).mpr ⟨by simpa using hl, fun j hj => by
            have := hr (j + 1) (by omega)
            rw [show i + 1 + j = i + (j + 1) by omega]
            simpa using this⟩
        simp [fbReadRange, h0, hs]

/-- Reading a range fails exactly where one of its cells is unwritten (R62). -/
theorem fbReadRange_eq_none (cells : List Host.Cell) (i k : Nat) :
    fbReadRange cells i k = none ↔ ∃ j, j < k ∧ fbRead cells (i + j) = none := by
  induction k generalizing i with
  | zero => simp [fbReadRange]
  | succ k ih =>
    unfold fbReadRange
    constructor
    · intro h
      cases h0 : fbRead cells i with
      | none => exact ⟨0, by omega, by simpa using h0⟩
      | some b =>
        cases h1 : fbReadRange cells (i + 1) k with
        | none =>
          obtain ⟨j, hj, hn⟩ := (ih (i + 1)).mp h1
          exact ⟨j + 1, by omega, by rw [show i + (j + 1) = i + 1 + j by omega]; exact hn⟩
        | some bs => simp [h0, h1] at h
    · rintro ⟨j, hj, hn⟩
      cases j with
      | zero => simp at hn; simp [hn]
      | succ j =>
        have : fbReadRange cells (i + 1) k = none :=
          (ih (i + 1)).mpr ⟨j, by omega, by rw [show i + 1 + j = i + (j + 1) by omega]; exact hn⟩
        rw [this]
        split <;> simp_all

/-- Where the listed addresses are `0 .. k-1`, exactly those cells hold a value. -/
theorem fbRead_isSome_iff_mem (cells : List Host.Cell) (i : Nat) :
    (fbRead cells i).isSome = true ↔ i ∈ cells.map Prod.fst := by
  induction cells with
  | nil => simp
  | cons c rest ih =>
    obtain ⟨a, b⟩ := c
    unfold fbRead
    split
    · next h => simp [h]
    · next h => simp [ih, Ne.symm h]

end Sys2Proof.Machine
end

