-- ==== Sys2Proof/Laws/State.lean ====
section
/-! SUPPORT. One lemma per field per update of the state, so that no proof unfolds a record update. -/

namespace Sys2Proof.Machine

/-! ## `State.endStep` -/

@[simp] theorem State.endStep_build (s : State) (t : Taken) : (s.endStep t).build = s.build := rfl
@[simp] theorem State.endStep_cfg (s : State) (t : Taken) : (s.endStep t).cfg = s.cfg := rfl
@[simp] theorem State.endStep_phase (s : State) (t : Taken) : (s.endStep t).phase = s.phase := rfl
@[simp] theorem State.endStep_progress (s : State) (t : Taken) : (s.endStep t).progress = s.progress := rfl
@[simp] theorem State.endStep_skipped (s : State) (t : Taken) : (s.endStep t).skipped = s.skipped := rfl
@[simp] theorem State.endStep_count (s : State) (t : Taken) : (s.endStep t).count = s.count := rfl
@[simp] theorem State.endStep_fb (s : State) (t : Taken) : (s.endStep t).fb = s.fb := rfl
@[simp] theorem State.endStep_err (s : State) (t : Taken) : (s.endStep t).err = s.err := rfl
@[simp] theorem State.endStep_env (s : State) (t : Taken) : (s.endStep t).env = s.env.after t := rfl
@[simp] theorem State.endStep_out (s : State) (t : Taken) : (s.endStep t).out = s.out := rfl
@[simp] theorem State.endStep_consumed (s : State) (t : Taken) : (s.endStep t).consumed = s.consumed + t.bytes := rfl
@[simp] theorem State.endStep_answered (s : State) (t : Taken) : (s.endStep t).answered = t.answered := rfl

/-! ## `State.emit` -/

@[simp] theorem State.emit_build (s : State) (e : Event) : (s.emit e).build = s.build := rfl
@[simp] theorem State.emit_cfg (s : State) (e : Event) : (s.emit e).cfg = s.cfg := rfl
@[simp] theorem State.emit_phase (s : State) (e : Event) : (s.emit e).phase = s.phase := rfl
@[simp] theorem State.emit_progress (s : State) (e : Event) : (s.emit e).progress = s.progress := rfl
@[simp] theorem State.emit_skipped (s : State) (e : Event) : (s.emit e).skipped = s.skipped := rfl
@[simp] theorem State.emit_count (s : State) (e : Event) : (s.emit e).count = s.count := rfl
@[simp] theorem State.emit_fb (s : State) (e : Event) : (s.emit e).fb = s.fb := rfl
@[simp] theorem State.emit_err (s : State) (e : Event) : (s.emit e).err = s.err := rfl
@[simp] theorem State.emit_env (s : State) (e : Event) : (s.emit e).env = s.env := rfl
@[simp] theorem State.emit_out (s : State) (e : Event) : (s.emit e).out = s.out ++ [e] := rfl
@[simp] theorem State.emit_consumed (s : State) (e : Event) : (s.emit e).consumed = s.consumed := rfl
@[simp] theorem State.emit_answered (s : State) (e : Event) : (s.emit e).answered = s.answered := rfl

/-! ## `State.raiseIoError` -/

@[simp] theorem State.raiseIoError_build (s : State) (cause : Cause) (c : Nat) : (s.raiseIoError cause c).build = s.build := rfl
@[simp] theorem State.raiseIoError_cfg (s : State) (cause : Cause) (c : Nat) : (s.raiseIoError cause c).cfg = s.cfg := rfl
@[simp] theorem State.raiseIoError_phase (s : State) (cause : Cause) (c : Nat) : (s.raiseIoError cause c).phase = .failed := rfl
@[simp] theorem State.raiseIoError_progress (s : State) (cause : Cause) (c : Nat) : (s.raiseIoError cause c).progress = s.progress := rfl
@[simp] theorem State.raiseIoError_skipped (s : State) (cause : Cause) (c : Nat) : (s.raiseIoError cause c).skipped = s.skipped := rfl
@[simp] theorem State.raiseIoError_count (s : State) (cause : Cause) (c : Nat) : (s.raiseIoError cause c).count = s.count := rfl
@[simp] theorem State.raiseIoError_fb (s : State) (cause : Cause) (c : Nat) : (s.raiseIoError cause c).fb = s.fb := rfl
@[simp] theorem State.raiseIoError_err (s : State) (cause : Cause) (c : Nat) : (s.raiseIoError cause c).err = { cause := cause, code := c } := rfl
@[simp] theorem State.raiseIoError_env (s : State) (cause : Cause) (c : Nat) : (s.raiseIoError cause c).env = s.env := rfl
@[simp] theorem State.raiseIoError_out (s : State) (cause : Cause) (c : Nat) : (s.raiseIoError cause c).out = s.out ++ [.fail cause c] := rfl
@[simp] theorem State.raiseIoError_consumed (s : State) (cause : Cause) (c : Nat) : (s.raiseIoError cause c).consumed = s.consumed := rfl
@[simp] theorem State.raiseIoError_answered (s : State) (cause : Cause) (c : Nat) : (s.raiseIoError cause c).answered = s.answered := rfl

/-! ## `State.clear` -/

@[simp] theorem State.clear_build (s : State) : (s.clear).build = s.build := rfl
@[simp] theorem State.clear_cfg (s : State) : (s.clear).cfg = s.cfg := rfl
@[simp] theorem State.clear_phase (s : State) : (s.clear).phase = .syncing := rfl
@[simp] theorem State.clear_progress (s : State) : (s.clear).progress = 0 := rfl
@[simp] theorem State.clear_skipped (s : State) : (s.clear).skipped = [] := rfl
@[simp] theorem State.clear_count (s : State) : (s.clear).count = 0 := rfl
@[simp] theorem State.clear_fb (s : State) : (s.clear).fb = [] := rfl
@[simp] theorem State.clear_err (s : State) : (s.clear).err = Err.clear := rfl
@[simp] theorem State.clear_env (s : State) : (s.clear).env = s.env := rfl
@[simp] theorem State.clear_out (s : State) : (s.clear).out = s.out := rfl
@[simp] theorem State.clear_consumed (s : State) : (s.clear).consumed = s.consumed := rfl
@[simp] theorem State.clear_answered (s : State) : (s.clear).answered = s.answered := rfl

/-! ## `State.present` -/

@[simp] theorem State.present_build (s : State) (x : In) : (s.present x).build = s.build := rfl
@[simp] theorem State.present_cfg (s : State) (x : In) : (s.present x).cfg = s.cfg := rfl
@[simp] theorem State.present_phase (s : State) (x : In) : (s.present x).phase = s.phase := rfl
@[simp] theorem State.present_progress (s : State) (x : In) : (s.present x).progress = s.progress := rfl
@[simp] theorem State.present_skipped (s : State) (x : In) : (s.present x).skipped = s.skipped := rfl
@[simp] theorem State.present_count (s : State) (x : In) : (s.present x).count = s.count := rfl
@[simp] theorem State.present_fb (s : State) (x : In) : (s.present x).fb = s.fb := rfl
@[simp] theorem State.present_err (s : State) (x : In) : (s.present x).err = s.err := rfl
@[simp] theorem State.present_env (s : State) (x : In) : (s.present x).env = s.env.present x := rfl
@[simp] theorem State.present_out (s : State) (x : In) : (s.present x).out = s.out := rfl
@[simp] theorem State.present_consumed (s : State) (x : In) : (s.present x).consumed = s.consumed := rfl
@[simp] theorem State.present_answered (s : State) (x : In) : (s.present x).answered = s.answered := rfl

/-! ## `State.emitLog` -/

@[simp] theorem State.emitLog_build (s : State) : s.emitLog.build = s.build := by
  unfold State.emitLog; split <;> rfl
@[simp] theorem State.emitLog_cfg (s : State) : s.emitLog.cfg = s.cfg := by
  unfold State.emitLog; split <;> rfl
@[simp] theorem State.emitLog_phase (s : State) : s.emitLog.phase = s.phase := by
  unfold State.emitLog; split <;> rfl
@[simp] theorem State.emitLog_progress (s : State) : s.emitLog.progress = s.progress := by
  unfold State.emitLog; split <;> rfl
@[simp] theorem State.emitLog_skipped (s : State) : s.emitLog.skipped = s.skipped := by
  unfold State.emitLog; split <;> rfl
@[simp] theorem State.emitLog_count (s : State) : s.emitLog.count = s.count := by
  unfold State.emitLog; split <;> rfl
@[simp] theorem State.emitLog_fb (s : State) : s.emitLog.fb = s.fb := by
  unfold State.emitLog; split <;> rfl
@[simp] theorem State.emitLog_err (s : State) : s.emitLog.err = s.err := by
  unfold State.emitLog; split <;> rfl
@[simp] theorem State.emitLog_env (s : State) : s.emitLog.env = s.env := by
  unfold State.emitLog; split <;> rfl
@[simp] theorem State.emitLog_consumed (s : State) : s.emitLog.consumed = s.consumed := by
  unfold State.emitLog; split <;> rfl
@[simp] theorem State.emitLog_answered (s : State) : s.emitLog.answered = s.answered := by
  unfold State.emitLog; split <;> rfl

/-- A log record is emitted exactly when something was skipped (R123). -/
@[simp] theorem State.emitLog_out (s : State) :
    s.emitLog.out = s.out ++ (if s.skipped = [] then [] else [Event.log s.skipped]) := by
  unfold State.emitLog State.skipNonempty
  cases s.skipped <;> simp

/-! ## The lengths derived from the configuration -/

@[simp] theorem State.endStep_markerLen (s : State) (t : Taken) : (s.endStep t).markerLen = s.markerLen := rfl
@[simp] theorem State.endStep_frameLen (s : State) (t : Taken) : (s.endStep t).frameLen = s.frameLen := rfl
@[simp] theorem State.emit_markerLen (s : State) (e : Event) : (s.emit e).markerLen = s.markerLen := rfl
@[simp] theorem State.emit_frameLen (s : State) (e : Event) : (s.emit e).frameLen = s.frameLen := rfl
@[simp] theorem State.raiseIoError_markerLen (s : State) (cause : Cause) (c : Nat) : (s.raiseIoError cause c).markerLen = s.markerLen := rfl
@[simp] theorem State.raiseIoError_frameLen (s : State) (cause : Cause) (c : Nat) : (s.raiseIoError cause c).frameLen = s.frameLen := rfl
@[simp] theorem State.clear_markerLen (s : State) : (s.clear).markerLen = s.markerLen := rfl
@[simp] theorem State.clear_frameLen (s : State) : (s.clear).frameLen = s.frameLen := rfl
@[simp] theorem State.present_markerLen (s : State) (x : In) : (s.present x).markerLen = s.markerLen := rfl
@[simp] theorem State.present_frameLen (s : State) (x : In) : (s.present x).frameLen = s.frameLen := rfl
@[simp] theorem State.emitLog_markerLen (s : State) : (s.emitLog).markerLen = s.markerLen := congrArg Config.mlen s.emitLog_cfg
@[simp] theorem State.emitLog_frameLen (s : State) : (s.emitLog).frameLen = s.frameLen := congrArg Config.frameLen s.emitLog_cfg

/-! ## What a step took -/

@[simp] theorem Taken.answered_nothing : Taken.nothing.answered = false := rfl
@[simp] theorem Taken.answered_byte : Taken.byte.answered = true := rfl
@[simp] theorem Taken.answered_error : Taken.error.answered = true := rfl
@[simp] theorem Taken.answered_ack : Taken.ack.answered = false := rfl
@[simp] theorem Taken.bytes_nothing : Taken.nothing.bytes = 0 := rfl
@[simp] theorem Taken.bytes_byte : Taken.byte.bytes = 1 := rfl
@[simp] theorem Taken.bytes_error : Taken.error.bytes = 0 := rfl
@[simp] theorem Taken.bytes_ack : Taken.ack.bytes = 0 := rfl

/-! ## The environment -/

@[simp] theorem Env.after_inputs (t : Taken) (l : List In) : (Env.inputs l).after t = .inputs l.tail := rfl
@[simp] theorem Env.after_program (t : Taken) (items : List Item) (prompt : Bool) :
    (Env.program items prompt).after t = .program (itemsAfter t items) prompt := rfl

theorem State.input_idle (s : State) (h : s.env = .inputs []) : s.input = {} := by
  simp [State.input, h]

theorem State.input_cons (s : State) (x : In) (l : List In) (h : s.env = .inputs (x :: l)) :
    s.input = x := by
  simp [State.input, h]

theorem State.input_program (s : State) (items : List Item) (prompt : Bool)
    (h : s.env = .program items prompt) :
    s.input = Item.offer prompt (decide (s.phase = .display)) items := by
  simp [State.input, h]

end Sys2Proof.Machine
end

