-- ==== Sys2Proof/Laws/Ops.lean ====
section
/-! SUPPORT. What each shared operation can do, said once: if it answers a next state, then this. -/

namespace Sys2Proof.Machine

theorem objection_eq_none (s : State) :
    s.objection = none ↔ s.cfgStable = true ∧ s.cfgLegal = true ∧ s.srcLegal = true := by
  unfold State.objection
  cases s.cfgStable <;> cases s.cfgLegal <;> cases s.srcLegal <;> simp

/-- When a step selects an operation (R102). -/
theorem selected_eq_ok (s : State) (i : Instr) :
    s.selected = .ok i ↔ decodeSel s.opsel = some i ∧ (s.input.rst = true ∨ s.objection = none) := by
  unfold State.selected
  cases decodeSel s.opsel with
  | none => simp
  | some j =>
    cases s.input.rst with
    | true => simp
    | false =>
      cases s.objection <;> simp

theorem selected_of_running (s : State) (i : Instr) (h : s.Running) (hd : decodeSel s.opsel = some i) :
    s.selected = .ok i :=
  (selected_eq_ok s i).mpr ⟨hd, .inr ((objection_eq_none s).mpr h.2)⟩

theorem perform_next (i : Instr) (s t : State) (body : Result) :
    perform i s body = .next t ↔ s.selected = .ok i ∧ body = .next t := by
  unfold perform
  cases s.selected with
  | error r => simp
  | ok j => by_cases h : j = i <;> simp [h]

theorem perform_of_selected (i : Instr) (s : State) (body : Result) (h : s.selected = .ok i) :
    perform i s body = body := by
  simp [perform, h]

theorem streamRead_next (s t : State) (body : Byte → Result) :
    streamRead s body = .next t ↔ ∃ b, s.offeredByte = some b ∧ body b = .next t := by
  unfold streamRead
  cases s.offeredByte <;> simp

theorem readCode_next (s t : State) (body : Nat → Result) :
    readCode s body = .next t ↔ ∃ c, s.offeredCode = some c ∧ body c = .next t := by
  unfold readCode
  cases s.offeredCode <;> simp

theorem storeCell_next (s t : State) (i : Nat) (b : Byte) (body : State → Result) :
    storeCell s i b body = .next t ↔ i < s.frameLen ∧ body { s with fb := fbWrite s.fb i b } = .next t := by
  unfold storeCell
  by_cases h : i < s.frameLen <;> simp [h]

theorem readFrame_next (s t : State) (body : List Byte → Result) :
    readFrame s body = .next t ↔ ∃ bytes, s.frameBytes = some bytes ∧ body bytes = .next t := by
  unfold readFrame
  cases s.frameBytes <;> simp

/-- The frame's bytes are the cells, in index order (R65). -/
theorem frameBytes_eq_some (s : State) (bytes : List Byte) :
    s.frameBytes = some bytes ↔
      bytes.length = s.frameLen ∧ ∀ j, j < s.frameLen → fbRead s.fb j = bytes[j]? := by
  simpa [State.frameBytes] using fbReadRange_eq_some s.fb 0 s.frameLen bytes

theorem offeredByte_eq_some (s : State) (b : Byte) :
    s.offeredByte = some b ↔ s.input.src = some (.byte b) := by
  unfold State.offeredByte
  split <;> simp_all

theorem offeredCode_eq_some (s : State) (c : Nat) :
    s.offeredCode = some c ↔ s.input.src = some (.err c) := by
  unfold State.offeredCode
  split <;> simp_all

/-- The accumulator takes a byte while it has room for one (R24). -/
theorem appendSkipped_eq (cap : Option Nat) (l : List Byte) (b : Byte) :
    appendSkipped cap l b = if atMost (l.length + 1) cap then l ++ [b] else l := by
  cases cap with
  | none => rfl
  | some n => by_cases h : l.length < n <;> simp [appendSkipped, atMost, h]

theorem appendSkipped_fits (cap : Option Nat) (l : List Byte) (b : Byte) (h : atMost l.length cap = true) :
    atMost (appendSkipped cap l b).length cap = true := by
  rw [appendSkipped_eq]
  split <;> simp_all

/-- Everything a step can do: it executes the operation it selects (R173). -/
theorem step_next (s t : State) :
    step s = .next t ↔ ∃ i, s.selected = .ok i ∧ exec i s = .next t := by
  unfold step
  cases s.selected <;> simp

/-- `n` steps are the host's run of the machine. -/
theorem runSteps_succ (n : Nat) (s t : State) :
    runSteps (n + 1) s = .next t ↔ ∃ u, step s = .next u ∧ runSteps n u = .next t := by
  conv_lhs => unfold runSteps
  cases step s <;> simp

end Sys2Proof.Machine
end

