-- ==== Sys2Proof/Laws/Meanings.lean ====
section
/-! SUPPORT. What each operation can do: if `exec` answers a next state, the step selected the operation
and the next state is this one. -/

namespace Sys2Proof.Machine

theorem exec_scanMatch_next (s t : State) : exec .scanMatch s = .next t ↔
    s.selected = .ok .scanMatch ∧ (∃ b, s.offeredByte = some b) ∧
      t = { s with progress := s.progress + 1 }.endStep .byte := by
  simp only [exec, execScanMatch, perform_next, streamRead_next, Host.Outcome.next.injEq, eq_comm (b := t)]
  aesop

theorem exec_scanMiss_next (s t : State) : exec .scanMiss s = .next t ↔
    s.selected = .ok .scanMiss ∧ ∃ b, s.offeredByte = some b ∧
      t = { s with progress := 0, skipped := appendSkipped s.build.skipCap s.skipped b }.endStep .byte := by
  simp only [exec, execScanMiss, perform_next, streamRead_next, Host.Outcome.next.injEq, eq_comm (b := t)]

theorem exec_scanDone_next (s t : State) : exec .scanDone s = .next t ↔
    s.selected = .ok .scanDone ∧
      t = { s.emitLog with skipped := [], progress := 0, count := 0, phase := .reading }.endStep .nothing := by
  simp only [exec, execScanDone, perform_next, Host.Outcome.next.injEq, eq_comm (b := t)]

theorem exec_scanFail_next (s t : State) : exec .scanFail s = .next t ↔
    s.selected = .ok .scanFail ∧ ∃ c, s.offeredCode = some c ∧
      t = (s.raiseIoError .syncIo c).endStep .error := by
  simp only [exec, execScanFail, perform_next, readCode_next, Host.Outcome.next.injEq, eq_comm (b := t)]

theorem exec_waitScan_next (s t : State) : exec .waitScan s = .next t ↔
    s.selected = .ok .waitScan ∧ t = s.endStep .nothing := by
  simp only [exec, execWaitScan, perform_next, Host.Outcome.next.injEq, eq_comm (b := t)]

theorem exec_readStore_next (s t : State) : exec .readStore s = .next t ↔
    s.selected = .ok .readStore ∧ ∃ b, s.offeredByte = some b ∧ s.count < s.frameLen ∧
      t = { s with fb := fbWrite s.fb s.count b, count := s.count + 1 }.endStep .byte := by
  simp only [exec, execReadStore, perform_next, streamRead_next, storeCell_next, Host.Outcome.next.injEq,
    eq_comm (b := t)]

theorem exec_readDone_next (s t : State) : exec .readDone s = .next t ↔
    s.selected = .ok .readDone ∧
      t = { s with phase := if s.emptyFrame then .skip else .display }.endStep .nothing := by
  simp only [exec, execReadDone, perform_next, Host.Outcome.next.injEq, eq_comm (b := t)]

theorem exec_readFail_next (s t : State) : exec .readFail s = .next t ↔
    s.selected = .ok .readFail ∧ ∃ c, s.offeredCode = some c ∧
      t = (s.raiseIoError .readIo c).endStep .error := by
  simp only [exec, execReadFail, perform_next, readCode_next, Host.Outcome.next.injEq, eq_comm (b := t)]

theorem exec_waitRead_next (s t : State) : exec .waitRead s = .next t ↔
    s.selected = .ok .waitRead ∧ t = s.endStep .nothing := by
  simp only [exec, execWaitRead, perform_next, Host.Outcome.next.injEq, eq_comm (b := t)]

theorem exec_pipeShow_next (s t : State) : exec .pipeShow s = .next t ↔
    s.selected = .ok .pipeShow ∧ ∃ bytes, s.frameBytes = some bytes ∧
      t = { s.emit (.frame s.cfg.width s.cfg.height bytes) with
        fb := [], count := 0, progress := 0, skipped := [], phase := .syncing }.endStep .ack := by
  simp only [exec, execPipeShow, perform_next, readFrame_next, Host.Outcome.next.injEq, eq_comm (b := t)]

theorem exec_waitShow_next (s t : State) : exec .waitShow s = .next t ↔
    s.selected = .ok .waitShow ∧ t = s.endStep .nothing := by
  simp only [exec, execWaitShow, perform_next, Host.Outcome.next.injEq, eq_comm (b := t)]

theorem exec_pipeSkip_next (s t : State) : exec .pipeSkip s = .next t ↔
    s.selected = .ok .pipeSkip ∧
      t = { s with count := 0, progress := 0, skipped := [], phase := .syncing }.endStep .nothing := by
  simp only [exec, execPipeSkip, perform_next, Host.Outcome.next.injEq, eq_comm (b := t)]

theorem exec_halt_next (s t : State) : exec .halt s = .next t ↔
    s.selected = .ok .halt ∧ t = s.endStep .nothing := by
  simp only [exec, execHalt, perform_next, Host.Outcome.next.injEq, eq_comm (b := t)]

theorem exec_reset_next (s t : State) : exec .reset s = .next t ↔
    s.selected = .ok .reset ∧ t = { s.clear with cfg := s.shownCfg }.endStep .nothing := by
  simp only [exec, execReset, perform_next, Host.Outcome.next.injEq, eq_comm (b := t)]

/-- An operation with a next state is the one the step selected (R27, R102). -/
theorem selected_of_exec_next (i : Instr) (s t : State) (h : exec i s = .next t) : s.selected = .ok i := by
  cases i
  · exact ((exec_reset_next s t).mp h).1
  · exact ((exec_scanMatch_next s t).mp h).1
  · exact ((exec_scanMiss_next s t).mp h).1
  · exact ((exec_scanDone_next s t).mp h).1
  · exact ((exec_scanFail_next s t).mp h).1
  · exact ((exec_waitScan_next s t).mp h).1
  · exact ((exec_readStore_next s t).mp h).1
  · exact ((exec_readDone_next s t).mp h).1
  · exact ((exec_readFail_next s t).mp h).1
  · exact ((exec_waitRead_next s t).mp h).1
  · exact ((exec_pipeShow_next s t).mp h).1
  · exact ((exec_waitShow_next s t).mp h).1
  · exact ((exec_pipeSkip_next s t).mp h).1
  · exact ((exec_halt_next s t).mp h).1

end Sys2Proof.Machine
end

