-- ==== Sys2Proof/Laws/PerInstr.lean ====
section
/-! SUPPORT. Statements about every operation, one lemma per constructor of `Instr`. -/

namespace Sys2Proof.Laws.CanonicalRow

/-- The operation map has a row for the operation, the row's canonical value is the one the encoder
builds from the selector fields, and the row matches it (R103). -/
def Statement (i : Instr) : Prop :=
  ∃ r ∈ opMap, r.instr = i ∧ r.canonical = i.selector.bits ∧ r.matches r.canonical = true

theorem reset : Statement .reset := by unfold Statement; decide
theorem scanMatch : Statement .scanMatch := by unfold Statement; decide
theorem scanMiss : Statement .scanMiss := by unfold Statement; decide
theorem scanDone : Statement .scanDone := by unfold Statement; decide
theorem scanFail : Statement .scanFail := by unfold Statement; decide
theorem waitScan : Statement .waitScan := by unfold Statement; decide
theorem readStore : Statement .readStore := by unfold Statement; decide
theorem readDone : Statement .readDone := by unfold Statement; decide
theorem readFail : Statement .readFail := by unfold Statement; decide
theorem waitRead : Statement .waitRead := by unfold Statement; decide
theorem pipeShow : Statement .pipeShow := by unfold Statement; decide
theorem waitShow : Statement .waitShow := by unfold Statement; decide
theorem pipeSkip : Statement .pipeSkip := by unfold Statement; decide
theorem halt : Statement .halt := by unfold Statement; decide

end Sys2Proof.Laws.CanonicalRow
end

