-- ==== Sys2Proof/Laws/Selector.lean ====
section
/-! SUPPORT. The operation map read by selector fields, and the selector a step computes. -/

namespace Sys2Proof

/-- The decoding procedure, field by field (R102 to R104). -/
theorem decodeSel_bits (f : Selector) : decodeSel f.bits =
    if f.rst then some .reset
    else match f.phase with
      | .syncing =>
        if f.tc then some .scanDone
        else match f.ev with
          | .none => some .waitScan
          | .byte => if f.eq then some .scanMatch else some .scanMiss
          | .err => some .scanFail
          | .ack => none
      | .reading =>
        if f.tc then some .readDone
        else match f.ev with
          | .none => some .waitRead
          | .byte => some .readStore
          | .err => some .readFail
          | .ack => none
      | .display =>
        match f.ev with
        | .none => some .waitShow
        | .byte => none
        | .err => none
        | .ack => some .pipeShow
      | .skip => some .pipeSkip
      | .failed => some .halt := by
  obtain ⟨rst, phase, ev, eq, tc⟩ := f
  cases rst <;> cases phase <;> cases ev <;> cases eq <;> cases tc <;> rfl

namespace Machine

/-- The operation a step selects, from the fields it computes. -/
theorem decodeSel_opsel (s : State) :
    decodeSel s.opsel = decodeSel ({ rst := s.input.rst, phase := s.phase, ev := s.ev, eq := s.eq,
                                     tc := s.tc } : Selector).bits := rfl

/-- `EV` while a read request is outstanding. -/
theorem ev_of_requesting (s : State) (h : s.requesting = true) :
    s.ev = match s.input.src with
      | some (.err _) => .err
      | some (.byte _) => .byte
      | none => .none := by
  rcases hs : s.input.src with _ | (_ | _) <;> simp [State.ev, h, hs]

/-- `EV` while none is. -/
theorem ev_of_not_requesting (s : State) (h : s.requesting = false) :
    s.ev = if s.phase = .display ∧ s.input.ack = true then .ack else .none := by
  simp [State.ev, h]

end Machine

end Sys2Proof
end

