-- ==== Sys2Proof/Tests/Slice0.lean ====
section
/-! SUPPORT. The implementer's own tests: well-formedness smoke tests, decoding of words written out from
spec/30_encoding.md R103, single-step vectors of spec/95_test_vectors.md, and for every statement with
hypotheses a state that meets them. -/

namespace Sys2Proof.Tests

open Sys2Proof Sys2Proof.Machine

/-! ## Well-formedness: one ill-formed term for each check -/

theorem test_wf_standard : Build.standard.wf = true ∧ Config.standard.wf Build.standard = true := by decide
theorem test_wf_build_maxl : ({ Build.standard with maxl := some 0 }).wf = false := by decide
theorem test_wf_build_dimBits : ({ Build.standard with dimBits := some 0 }).wf = false := by decide
theorem test_wf_build_skipCap : ({ Build.standard with skipCap := some 0 }).wf = false := by decide
theorem test_wf_build_errBits : ({ Build.standard with errBits := 1 }).wf = false := by decide
theorem test_wf_config_empty_marker :
    ({ Config.standard with marker := [], mlen := 0 }).wf Build.standard = false := by decide
theorem test_wf_config_marker_length : ({ Config.standard with mlen := 7 }).wf Build.standard = false := by
  decide
theorem test_wf_config_maxl : Config.standard.wf { Build.standard with maxl := some 7 } = false := by decide
theorem test_wf_config_width :
    ({ Config.standard with width := 128 }).wf { Build.standard with dimBits := some 7 } = false := by decide
theorem test_wf_config_height :
    ({ Config.standard with height := 128 }).wf { Build.standard with dimBits := some 7 } = false := by decide
theorem test_wf_answer : (Answer.err 4).wf Build.standard = false := by decide
theorem test_wf_item : (Item.answer (.err 4)).wf Build.standard = false := by decide
theorem test_wf_memory_order : Memory.wf 3 [(1, 0), (0, 0)] = false := by decide
theorem test_wf_memory_range : Memory.wf 3 [(3, 0)] = false := by decide
theorem test_ascii : asciiBytes ['A', 'B'] = some [0x41, 0x42] ∧ asciiBytes ['é'] = none := by decide

/-! ## Decoding: words written out from R103, bit by bit; the bits R103 leaves open are set in the second
word of a pair (spec/95_test_vectors.md 2.4) -/

theorem test_decode_reset : decodeTableWord 8 0b10000000 = some .reset ∧
    decodeTableWord 8 0b11111111 = some .reset := by decide
theorem test_decode_scanMatch : decodeTableWord 8 0b00000110 = some .scanMatch := by decide
theorem test_decode_scanMiss : decodeTableWord 8 0b00000100 = some .scanMiss := by decide
theorem test_decode_scanDone : decodeTableWord 8 0b00000001 = some .scanDone ∧
    decodeTableWord 8 0b00001111 = some .scanDone := by decide
theorem test_decode_scanFail : decodeTableWord 8 0b00001000 = some .scanFail ∧
    decodeTableWord 8 0b00001010 = some .scanFail := by decide
theorem test_decode_waitScan : decodeTableWord 8 0b00000000 = some .waitScan ∧
    decodeTableWord 8 0b00000010 = some .waitScan := by decide
theorem test_decode_readStore : decodeTableWord 8 0b00010100 = some .readStore ∧
    decodeTableWord 8 0b00010110 = some .readStore := by decide
theorem test_decode_readDone : decodeTableWord 8 0b00010001 = some .readDone ∧
    decodeTableWord 8 0b00011111 = some .readDone := by decide
theorem test_decode_readFail : decodeTableWord 8 0b00011000 = some .readFail ∧
    decodeTableWord 8 0b00011010 = some .readFail := by decide
theorem test_decode_waitRead : decodeTableWord 8 0b00010000 = some .waitRead ∧
    decodeTableWord 8 0b00010010 = some .waitRead := by decide
theorem test_decode_pipeShow : decodeTableWord 8 0b00101100 = some .pipeShow ∧
    decodeTableWord 8 0b00101111 = some .pipeShow := by decide
theorem test_decode_waitShow : decodeTableWord 8 0b00100000 = some .waitShow ∧
    decodeTableWord 8 0b00100011 = some .waitShow := by decide
theorem test_decode_pipeSkip : decodeTableWord 8 0b00110000 = some .pipeSkip ∧
    decodeTableWord 8 0b00111111 = some .pipeSkip := by decide
theorem test_decode_halt : decodeTableWord 8 0b01000000 = some .halt ∧
    decodeTableWord 8 0b01001111 = some .halt := by decide
theorem test_decode_reserved : decode [0x2B, 0x00] = .error .reservedSelector ∧
    decode [] = .error .truncated := ⟨rfl, rfl⟩
theorem test_canonical_values :
    (opMap.all fun r => decide (r.canonical = r.instr.selector.bits)) = true := by decide

/-! ## Single steps: the vectors of spec/95_test_vectors.md, parts 2.1 to 2.3 (marker "AB", 3 by 1) -/

/-- The configuration of the single-step vectors. -/
def cfgAB : Config := { marker := [0x41, 0x42], mlen := 2, width := 3, height := 1 }

/-- A state of the single-step vectors, clean but for the input. -/
def offer (x : In) : State := State.start Build.standard cfgAB (.inputs [x])

/-- `READING` with the first bytes stored. -/
def readingAt (bytes : List Byte) (x : In) : State :=
  { offer x with phase := .reading, count := bytes.length, fb := (List.range bytes.length).zip bytes }

/-- `DISPLAY` with the frame `07 08 09`. -/
def displaying (x : In) : State := { readingAt [7, 8, 9] x with phase := .display }

/-- `FAILED` after a read error. -/
def failedAt (x : In) : State := { readingAt [1] x with phase := .failed, err := { cause := .readIo, code := 3 } }

/-- An empty geometry, 0 by 5. -/
def emptyCfg : Config := { cfgAB with width := 0, height := 5 }

/-- The step has a next state with the property. -/
def stepsTo (s : State) (p : State → Bool) : Bool :=
  match step s with
  | .next t => p t
  | .fault _ => false
  | .refused _ => false

theorem test_V1_scanMatch : stepsTo (offer { src := some (.byte 0x41) }) (fun t =>
    decide (t.phase = .syncing ∧ t.progress = 1 ∧ t.skipped = [] ∧ t.answered = true)) = true := by decide
theorem test_V2_scanMatch_last : stepsTo { offer { src := some (.byte 0x42) } with progress := 1 } (fun t =>
    decide (t.phase = .syncing ∧ t.progress = 2)) = true := by decide
theorem test_V4_scanMiss_no_retest : stepsTo { offer { src := some (.byte 0x41) } with progress := 1 }
    (fun t => decide (t.progress = 0 ∧ t.skipped = [0x41])) = true := by decide
theorem test_V27_scanMiss_full : stepsTo { offer { src := some (.byte 2) } with
      skipped := [0, 1], build := { Build.standard with skipCap := some 2 } }
    (fun t => decide (t.progress = 0 ∧ t.skipped = [0, 1] ∧ t.consumed = 1)) = true := by decide
theorem test_V5b_scanDone_ignores_error : stepsTo { offer { src := some (.err 1) } with progress := 2 }
    (fun t => decide (t.phase = .reading ∧ t.progress = 0 ∧ t.out = [] ∧ t.answered = false)) = true := by decide
theorem test_V6_scanDone_logs : stepsTo { offer {} with progress := 2, skipped := [0x00, 0x43] } (fun t =>
    decide (t.phase = .reading ∧ t.skipped = [] ∧ t.out = [.log [0x00, 0x43]])) = true := by decide
theorem test_V7_scanFail : stepsTo { offer { src := some (.err 1) } with progress := 1, skipped := [0] }
    (fun t => decide (t.phase = .failed ∧ t.progress = 1 ∧ t.skipped = [0] ∧
      t.err = { cause := .syncIo, code := 1 } ∧ t.out = [.fail .syncIo 1])) = true := by decide
theorem test_V9b_waitScan : stepsTo (offer { ack := true }) (fun t =>
    decide (t.phase = .syncing ∧ t.progress = 0)) = true := by decide
theorem test_V11_readStore : stepsTo (readingAt [7] { src := some (.byte 0x41) }) (fun t =>
    decide (t.count = 2 ∧ t.progress = 0 ∧ t.fb = [(0, 7), (1, 0x41)])) = true := by decide
theorem test_V12_readStore_last : stepsTo (readingAt [7, 8] { src := some (.byte 9) }) (fun t =>
    decide (t.phase = .reading ∧ t.count = 3)) = true := by decide
theorem test_V13b_readDone : stepsTo (readingAt [7, 8, 9] { src := some (.err 2) }) (fun t =>
    decide (t.phase = .display ∧ t.count = 3 ∧ t.answered = false)) = true := by decide
theorem test_V14_readDone_empty : stepsTo { readingAt [] { src := some (.err 3) } with cfg := emptyCfg }
    (fun t => decide (t.phase = .skip)) = true := by decide
theorem test_V15_readFail : stepsTo (readingAt [1] { src := some (.err 3) }) (fun t =>
    decide (t.phase = .failed ∧ t.count = 1 ∧ t.fb = [(0, 1)] ∧ t.err = { cause := .readIo, code := 3 } ∧
      t.out = [.fail .readIo 3])) = true := by decide
theorem test_V16_waitRead : stepsTo (readingAt [1] {}) (fun t =>
    decide (t.phase = .reading ∧ t.count = 1)) = true := by decide
theorem test_V19b_pipeShow : stepsTo (displaying { src := some (.byte 0x41), ack := true }) (fun t =>
    decide (t.phase = .syncing ∧ t.count = 0 ∧ t.fb = [] ∧ t.out = [.frame 3 1 [7, 8, 9]] ∧
      t.answered = false)) = true := by decide
theorem test_V18_waitShow : stepsTo (displaying { src := some (.byte 0x41) }) (fun t =>
    decide (t.phase = .display ∧ t.count = 3 ∧ t.out = [] ∧ t.answered = false)) = true := by decide
theorem test_V20_pipeSkip : stepsTo { offer { src := some (.byte 0x5A), ack := true } with
      cfg := emptyCfg, phase := .skip }
    (fun t => decide (t.phase = .syncing ∧ t.out = [] ∧ t.answered = false)) = true := by decide
theorem test_V21_halt : stepsTo (failedAt { src := some (.byte 0x58), ack := true }) (fun t =>
    decide (t.phase = .failed ∧ t.count = 1 ∧ t.err = { cause := .readIo, code := 3 })) = true := by decide
theorem test_V22_reset : stepsTo (failedAt { rst := true }) (fun t =>
    decide (t.phase = .syncing ∧ t.count = 0 ∧ t.fb = [] ∧ t.err = { cause := .none, code := 0 })) = true := by
  decide
theorem test_V24_reset_drops_frame : stepsTo (displaying { rst := true, ack := true }) (fun t =>
    decide (t.phase = .syncing ∧ t.out = [])) = true := by decide
theorem test_selectors : (readingAt [7, 8] { rst := true, src := some (.byte 9) }).opsel = 0x94 ∧
    (displaying { rst := true, ack := true }).opsel = 0xAC := by decide

/-- Every operation executes somewhere, placed as the first operation after reset: the hypothesis
`exec i s = next t` of the statements over all operations is met for every `i`. -/
theorem witness_every_operation_executes (i : Instr) :
    ∃ s t, step s = .next t ∧ exec i s = .next t := by
  cases i
  · exact ⟨State.reset.withFetchWord 8 0x80, _, rfl, rfl⟩
  · exact ⟨State.reset.withFetchWord 8 0x06, _, rfl, rfl⟩
  · exact ⟨State.reset.withFetchWord 8 0x04, _, rfl, rfl⟩
  · exact ⟨State.reset.withFetchWord 8 0x01, _, rfl, rfl⟩
  · exact ⟨State.reset.withFetchWord 8 0x08, _, rfl, rfl⟩
  · exact ⟨State.reset.withFetchWord 8 0x00, _, rfl, rfl⟩
  · exact ⟨State.reset.withFetchWord 8 0x14, _, rfl, rfl⟩
  · exact ⟨State.reset.withFetchWord 8 0x11, _, rfl, rfl⟩
  · exact ⟨State.reset.withFetchWord 8 0x18, _, rfl, rfl⟩
  · exact ⟨State.reset.withFetchWord 8 0x10, _, rfl, rfl⟩
  · exact ⟨State.reset.withFetchWord 8 0x2C, _, rfl, rfl⟩
  · exact ⟨State.reset.withFetchWord 8 0x20, _, rfl, rfl⟩
  · exact ⟨State.reset.withFetchWord 8 0x30, _, rfl, rfl⟩
  · exact ⟨State.reset.withFetchWord 8 0x40, _, rfl, rfl⟩

/-! ## Witnesses for the statements' hypotheses -/

theorem witness_ScanMatchAdvancesProgress :
    ∃ (s : State) (b : Byte), s.Running ∧ s.phase = .syncing ∧ s.progress < s.markerLen ∧
      s.input.src = some (.byte b) ∧ s.expected = some b ∧ s.progress + 1 = s.markerLen :=
  ⟨{ offer { src := some (.byte 0x42) } with progress := 1 }, 0x42, by decide⟩

theorem witness_ScanMissRestartsAtZero :
    ∃ (s : State) (b : Byte), s.Running ∧ s.phase = .syncing ∧ s.progress < s.markerLen ∧
      s.input.src = some (.byte b) ∧ s.expected ≠ some b :=
  ⟨{ offer { src := some (.byte 0x41) } with progress := 1 }, 0x41, by decide⟩

theorem witness_ScanMiss_full_accumulator :
    ∃ (s : State) (b : Byte), s.Running ∧ s.phase = .syncing ∧ s.progress < s.markerLen ∧
      s.input.src = some (.byte b) ∧ s.expected ≠ some b ∧
      atMost (s.skipped.length + 1) s.build.skipCap = false :=
  ⟨{ offer { src := some (.byte 2) } with
      skipped := [0, 1], build := { Build.standard with skipCap := some 2 } }, 2, by decide⟩

theorem witness_ScanDoneEntersReading :
    ∃ s : State, s.Running ∧ s.phase = .syncing ∧ s.progress = s.markerLen ∧ s.frameLen = 0 :=
  ⟨{ offer {} with progress := 2, cfg := emptyCfg }, by decide⟩

theorem witness_ScanFailRecordsSyncIo :
    ∃ (s : State) (c : Nat), s.Running ∧ s.phase = .syncing ∧ s.progress < s.markerLen ∧
      s.input.src = some (.err c) :=
  ⟨offer { src := some (.err 3) }, 3, by decide⟩

theorem witness_WaitScanChangesNothing :
    ∃ s : State, s.Running ∧ s.phase = .syncing ∧ s.progress < s.markerLen ∧ s.input.src = none :=
  ⟨offer {}, by decide⟩

theorem witness_ReadStoreWritesOneCell :
    ∃ (s : State) (b : Byte), s.Running ∧ s.phase = .reading ∧ s.count < s.frameLen ∧
      s.input.src = some (.byte b) ∧ s.count + 1 = s.frameLen :=
  ⟨readingAt [7, 8] { src := some (.byte 9) }, 9, by decide⟩

theorem witness_ReadDoneChoosesDisplay :
    ∃ s : State, s.Running ∧ s.phase = .reading ∧ s.count = s.frameLen ∧ 0 < s.frameLen :=
  ⟨readingAt [7, 8, 9] {}, by decide⟩

theorem witness_ReadDoneChoosesSkip :
    ∃ s : State, s.Running ∧ s.phase = .reading ∧ s.count = s.frameLen ∧ s.frameLen = 0 :=
  ⟨{ readingAt [] {} with cfg := emptyCfg }, by decide⟩

theorem witness_ReadFailRecordsReadIo :
    ∃ (s : State) (c : Nat), s.Running ∧ s.phase = .reading ∧ s.count < s.frameLen ∧
      s.input.src = some (.err c) :=
  ⟨readingAt [1] { src := some (.err 3) }, 3, by decide⟩

theorem witness_WaitReadChangesNothing :
    ∃ s : State, s.Running ∧ s.phase = .reading ∧ s.count < s.frameLen ∧ s.input.src = none :=
  ⟨readingAt [1] {}, by decide⟩

theorem witness_PipeShowHandsOverFrame :
    ∃ s : State, s.Running ∧ s.phase = .display ∧ s.input.ack = true ∧
      (∀ i, i < s.frameLen → (fbRead s.fb i).isSome = true) ∧ s.err = Err.clear :=
  ⟨displaying { ack := true }, by decide⟩

theorem witness_PipeShowFaultsOnUnwrittenCell :
    ∃ (s : State) (i : Nat), s.Running ∧ s.phase = .display ∧ s.input.ack = true ∧
      i < s.frameLen ∧ fbRead s.fb i = none :=
  ⟨{ displaying { ack := true } with fb := [(0, 7), (1, 8)] }, 2, by decide⟩

theorem witness_WaitShowChangesNothing :
    ∃ s : State, s.Running ∧ s.phase = .display ∧ s.input.ack = false :=
  ⟨displaying {}, by decide⟩

theorem witness_PipeSkipStartsNextIteration : ∃ s : State, s.Running ∧ s.phase = .skip :=
  ⟨{ offer {} with cfg := emptyCfg, phase := .skip }, by decide⟩

theorem witness_HaltChangesNothing : ∃ s : State, s.Running ∧ s.phase = .failed :=
  ⟨failedAt {}, by decide⟩

theorem witness_ResetRestoresInitialState : ∃ s : State, s.input.rst = true ∧ s.input.cfg = some emptyCfg :=
  ⟨failedAt { rst := true, cfg := some emptyCfg }, by decide⟩

theorem witness_StepRunsSelectedOperation :
    (∃ (s : State) (i : Instr), decodeSel s.opsel = some i ∧ s.Running) ∧
    (∃ (s : State) (i : Instr), decodeSel s.opsel = some i ∧ s.input.rst = true) :=
  ⟨⟨offer {}, .waitScan, by decide⟩, ⟨offer { rst := true }, .reset, by decide⟩⟩

theorem witness_StepRefusesIllegalRuns :
    (∃ s : State, s.input.rst = false ∧ s.cfgStable = false) ∧
    (∃ s : State, s.input.rst = false ∧ s.cfgStable = true ∧ s.cfgLegal = false) ∧
    (∃ s : State, s.input.rst = false ∧ s.cfgStable = true ∧ s.cfgLegal = true ∧ s.srcLegal = false) :=
  ⟨⟨offer { cfg := some emptyCfg }, by decide⟩,
   ⟨{ offer {} with cfg := { cfgAB with marker := [], mlen := 0 } }, by decide⟩,
   ⟨offer { src := some (.err 4) }, by decide⟩⟩

theorem witness_NeverWaitsWhenAnswered :
    (∃ s : State, s.Running ∧ s.inReady false = true ∧ s.input.src ≠ none) ∧
    (∃ s : State, s.Running ∧ (s.pins false).frameValid = true ∧ s.input.ack = true) :=
  ⟨⟨offer { src := some (.byte 0) }, by decide⟩, ⟨displaying { ack := true }, by decide⟩⟩

theorem witness_DecodeEncodeAgree :
    ∃ (w : OpSel) (i : Instr) (rest tail : List Byte), decode (w :: rest) = .ok (i, tail) :=
  ⟨0x2F, .pipeShow, [0x00], [0x00], rfl⟩

theorem witness_OperationMapDisjoint :
    ∃ (w : OpSel) (r : OpRow), r ∈ opMap ∧ r.matches w = true :=
  ⟨0x1A, ⟨.readFail, 0x18, 0xFD, 0x18⟩, by decide⟩

theorem witness_PlacedWordExecutes :
    ∃ (s : State) (w : Nat) (i : Instr), w < 256 ∧ s.cfgLegal = true ∧ decodeTableWord 8 w = some i :=
  ⟨State.reset, 0xFF, .reset, by decide⟩

/-- The reserved values of R105 whose fields can be written down, one of each phase. -/
theorem witness_PlacedWordExecutes_reserved :
    decodeTableWord 8 0x0C = none ∧ decodeTableWord 8 0x1E = none ∧ decodeTableWord 8 0x2B = none := by
  decide

theorem test_reserved_word_places_nothing :
    State.reset.withFetchWord 8 0x0C = State.reset ∧ State.reset.withFetchWord 8 0x1E = State.reset ∧
      State.reset.withFetchWord 8 0x2B = State.reset ∧ State.reset.withFetchWord 8 0x7F = State.reset := by
  decide

theorem witness_clean : State.reset.Clean := by decide

/-- The table of R41 holds in a state of each phase. -/
theorem witness_inv_syncing : State.Inv { offer {} with progress := 2, skipped := [5] } :=
  ⟨by decide, by decide, by decide, by decide, by decide, by decide⟩
theorem witness_inv_reading : State.Inv (readingAt [7, 8] { src := some (.byte 9) }) :=
  ⟨by decide, by decide, by decide, by decide, by decide, by decide⟩
theorem witness_inv_display : State.Inv (displaying { ack := true }) :=
  ⟨by decide, by decide, by decide, by decide, by decide, by decide⟩
theorem witness_inv_skip : State.Inv { offer {} with cfg := emptyCfg, phase := .skip } :=
  ⟨by decide, by decide, by decide, by decide, by decide, by decide⟩
theorem witness_inv_failed : State.Inv (failedAt { rst := true }) :=
  ⟨by decide, by decide, by decide, by decide, by decide, by decide⟩

theorem witness_EveryStepKeepsInv : ∃ s t : State, s.Inv ∧ step s = .next t :=
  ⟨_, _, witness_inv_reading, rfl⟩

theorem witness_RunningStepCompletes :
    (∃ s : State, s.Inv ∧ s.Running) ∧ (∃ s : State, s.Inv ∧ s.input.rst = true) :=
  ⟨⟨_, witness_inv_display, by decide⟩, ⟨_, witness_inv_failed, by decide⟩⟩

theorem witness_EveryStepKeepsBufferForm :
    ∃ s t : State, Memory.wf s.frameLen s.fb = true ∧ step s = .next t :=
  ⟨readingAt [7, 8] { src := some (.byte 9) }, _, by decide, rfl⟩

theorem witness_ConfigurationMovesOnlyInReset :
    (∃ s t : State, step s = .next t ∧ s.input.rst = false) ∧
    (∃ s t : State, step s = .next t ∧ s.input.rst = true ∧ t.cfg ≠ s.cfg) :=
  ⟨⟨offer {}, _, rfl, by decide⟩, ⟨offer { rst := true, cfg := some emptyCfg }, _, rfl, by decide⟩⟩

theorem witness_IterationsStartClean :
    (∃ s t : State, s.Inv ∧ step s = .next t ∧ t.phase = .syncing ∧ s.phase = .display) ∧
    (∃ s t : State, s.Inv ∧ step s = .next t ∧ t.phase = .syncing ∧ s.phase = .skip) ∧
    (∃ s t : State, s.Inv ∧ step s = .next t ∧ t.phase = .syncing ∧ s.input.rst = true) :=
  ⟨⟨_, _, witness_inv_display, rfl, rfl, rfl⟩, ⟨_, _, witness_inv_skip, rfl, rfl, rfl⟩,
   ⟨_, _, witness_inv_failed, rfl, rfl, rfl⟩⟩

theorem witness_OnlyResetLeavesFailed :
    ∃ s t : State, s.phase = .failed ∧ step s = .next t ∧ t.phase ≠ .failed :=
  ⟨failedAt { rst := true }, _, rfl, rfl, by decide⟩

theorem witness_FailedStaysSilentUntilReset :
    ∃ s : State, s.phase = .failed ∧ s.cfgLegal = true ∧ s.env.quiet = true :=
  ⟨failedAt { src := some (.err 1), ack := true }, by decide⟩

theorem witness_WaitingPreservesState :
    (∃ s : State, s.env = .inputs [] ∧ s.cfgLegal = true ∧ s.requesting = true) ∧
    (∃ s : State, s.env = .inputs [] ∧ s.cfgLegal = true ∧ s.phase = .display) ∧
    (∃ s : State, s.env = .inputs [] ∧ s.cfgLegal = true ∧ s.phase = .failed) :=
  ⟨⟨State.reset, by decide⟩, ⟨{ displaying {} with env := .inputs [] }, by decide⟩,
   ⟨{ failedAt {} with env := .inputs [] }, by decide⟩⟩

theorem witness_UnsolicitedAnswerIgnored :
    (∃ (s : State) (x : In) (l : List In), s.env = .inputs (x :: l) ∧ s.requesting = false) ∧
    (∃ (s : State) (x : In) (l : List In), s.env = .inputs (x :: l) ∧ s.requesting = true ∧
      s.inReady x.rst = false) :=
  ⟨⟨displaying { src := some (.byte 1) }, _, _, rfl, by decide⟩, ⟨offer { rst := true }, _, _, rfl, by decide⟩⟩

theorem witness_UnsolicitedAckIgnored :
    (∃ (s : State) (x : In) (l : List In), s.env = .inputs (x :: l) ∧ s.phase ≠ .display) ∧
    (∃ (s : State) (x : In) (l : List In), s.env = .inputs (x :: l) ∧ x.rst = true ∧ s.phase = .display) :=
  ⟨⟨offer { ack := true }, _, _, rfl, by decide⟩, ⟨displaying { rst := true }, _, _, rfl, by decide⟩⟩

theorem witness_FrameEventsAreComplete :
    ∃ (s t : State) (w h : Nat) (bytes : List Byte), s.Inv ∧ step s = .next t ∧
      t.out = s.out ++ [Event.frame w h bytes] :=
  ⟨_, _, 3, 1, [7, 8, 9], witness_inv_display, rfl, by decide⟩

theorem witness_EmptyGeometryShowsNothing :
    ∃ (n : Nat) (s t : State), s.Inv ∧ s.frameLen = 0 ∧ s.env.quiet = true ∧ runSteps n s = .next t :=
  ⟨1, _, _, witness_inv_skip, by decide, by decide, rfl⟩

theorem witness_StimulusHoldsUntakenAnswer :
    ∃ (s t : State) (items : List Item) (prompt : Bool) (a : Answer), s.env = .program items prompt ∧
      s.input.src = some a ∧ step s = .next t ∧ t.answered = false :=
  ⟨{ displaying {} with env := .program [.answer (.byte 0x41)] true }, _, _, _, .byte 0x41, rfl, by decide,
    rfl, rfl⟩

theorem witness_CountersFitTheirRegisters :
    ∃ s : State, s.Inv ∧ s.cfgLegal = true ∧ s.build.cntBits = some 4 ∧ s.build.progBits = some 2 :=
  ⟨{ readingAt [7, 8] {} with build := { Build.standard with maxl := some 2, dimBits := some 2 } },
    ⟨by decide, by decide, by decide, by decide, by decide, by decide⟩, by decide⟩

theorem witness_ReadPortShowsPresentedFrame :
    ∃ (s : State) (raddr : Nat), s.Inv ∧ s.phase = .display ∧ raddr < s.frameLen :=
  ⟨_, 2, witness_inv_display, by decide⟩

theorem witness_ScannerFollowsDelta :
    (∃ (s : State) (b : Byte), s.Running ∧ s.phase = .syncing ∧ s.progress < s.markerLen ∧
      s.input.src = some (.byte b) ∧ scanDelta s.cfg.marker s.progress b = 1) ∧
    (∃ (s : State) (b : Byte), s.Running ∧ s.phase = .syncing ∧ s.progress < s.markerLen ∧
      s.input.src = some (.byte b) ∧ scanDelta s.cfg.marker s.progress b = 0) :=
  ⟨⟨offer { src := some (.byte 0x41) }, 0x41, by decide⟩, ⟨offer { src := some (.byte 0x42) }, 0x42, by decide⟩⟩

theorem witness_SyncSuccessEndsWithMarker :
    ∃ (marker : List Byte) (cap : Option Nat) (answers : List Answer) (used : Nat) (skipped : List Byte),
      sync marker cap answers = .ok used skipped ∧ marker.length < used :=
  ⟨[0x41, 0x42], none, byteAnswers [0x41, 0x43, 0x41, 0x42], 4, [0x43], by decide⟩

theorem witness_SyncFindsMarkerAtRestartPoints :
    ∃ (marker s : List Byte) (cap : Option Nat) (k : Nat) (skipped : List Byte), 0 < marker.length ∧ 0 < k ∧
      sync marker cap (byteAnswers s) = .ok (k + marker.length) skipped :=
  ⟨[0x41, 0x42], [0x41, 0x43, 0x41, 0x42], none, 2, [0x43], by decide⟩

theorem witness_SyncLogHoldsMismatchedBytes :
    ∃ (marker s : List Byte) (used : Nat) (skipped : List Byte), 0 < marker.length ∧
      sync marker none (byteAnswers s) = .ok used skipped ∧ skipped ≠ [] :=
  ⟨[0x41, 0x42], [0x41, 0x43, 0x41, 0x42], 4, [0x43], by decide⟩

theorem witness_SyncFindsMarkerAfterPlainNoise :
    ∃ (m : Byte) (noise : List Byte), m ∉ noise ∧ noise ≠ [] := ⟨0x58, [0, 1, 2], by decide⟩

theorem witness_EqualByteMarkerNeverMissed :
    ∃ (m : Byte) (len k : Nat) (s : List Byte), 0 < len ∧ 0 < k ∧
      greedy (List.replicate len m) (s.drop k) = len ∧
      (∀ j, j < k → greedy (List.replicate len m) (s.drop j) < len) :=
  ⟨0x41, 2, 2, [0x41, 0x42, 0x41, 0x41], by decide⟩

theorem witness_ReadFrameTakesExactlyN :
    ∃ (n : Nat) (answers : List Answer) (used : Nat) (buf : List Byte),
      readFrameOf n answers = .ok used buf ∧ 0 < n :=
  ⟨3, byteAnswers [7, 8, 9, 10], 3, [7, 8, 9], by decide⟩

theorem witness_StepwiseRunAgreesWithReference :
    ∃ (p : Build) (c : Config) (items : List Item), p.wf = true ∧ c.wf p = true ∧
      plainStimulus p items = true ∧ (referenceRun p.skipCap c (answersOf items)).1 ≠ [] :=
  ⟨Build.standard, cfgAB,
    [.answer (.byte 0), .idle 2, .answer (.byte 0x41), .answer (.byte 0x42), .answer (.err 1)], by decide⟩

theorem witness_CleanRecordYieldsItsPayload :
    ∃ (p : Build) (c : Config) (payload : List Byte), p.wf = true ∧ c.wf p = true ∧ 0 < c.frameLen ∧
      payload.length = c.frameLen :=
  ⟨Build.standard, cfgAB, [7, 8, 9], by decide⟩

/-- The bytes `5A 07`, or `5A` alone, and the marker `"Z"`: an iteration that ends with each of the four
operations that can end one. -/
def markerZ : Config := { cfgAB with marker := [0x5A], mlen := 1, width := 1 }

theorem witness_IterationFollowsMacro :
    ∃ (s : State) (n : Nat) (l : List Instr) (t : State), s.Clean ∧ s.env.quiet = true ∧
      runOps n s = some (l ++ [.pipeShow], t) ∧ ∀ i, i ∈ l → endsIteration i = false :=
  ⟨State.start Build.standard markerZ (.program [.answer (.byte 0x5A), .answer (.byte 7)] true), 5,
    [.scanMatch, .scanDone, .readStore, .readDone], _, by decide, by decide, rfl, by decide⟩

theorem witness_IterationFollowsMacro_skip :
    ∃ (s : State) (n : Nat) (l : List Instr) (t : State), s.Clean ∧ s.env.quiet = true ∧
      runOps n s = some (l ++ [.pipeSkip], t) ∧ ∀ i, i ∈ l → endsIteration i = false :=
  ⟨State.start Build.standard { markerZ with width := 0 } (.program [.answer (.byte 0x5A)] true), 4,
    [.scanMatch, .scanDone, .readDone], _, by decide, by decide, rfl, by decide⟩

theorem witness_IterationFollowsMacro_noSync :
    ∃ (s : State) (n : Nat) (l : List Instr) (t : State), s.Clean ∧ s.env.quiet = true ∧
      runOps n s = some (l ++ [.scanFail], t) ∧ ∀ i, i ∈ l → endsIteration i = false :=
  ⟨State.start Build.standard markerZ (.program [.answer (.byte 7), .answer (.err 1)] true), 2,
    [.scanMiss], _, by decide, by decide, rfl, by decide⟩

theorem witness_IterationFollowsMacro_noFrame :
    ∃ (s : State) (n : Nat) (l : List Instr) (t : State), s.Clean ∧ s.env.quiet = true ∧
      runOps n s = some (l ++ [.readFail], t) ∧ ∀ i, i ∈ l → endsIteration i = false :=
  ⟨State.start Build.standard markerZ (.program [.answer (.byte 0x5A), .answer (.err 1)] true), 3,
    [.scanMatch, .scanDone], _, by decide, by decide, rfl, by decide⟩

theorem witness_RunFollowsMacro :
    ∃ (s t : State) (l : List Instr), s.input.rst = true ∧ (s.env.after .nothing).quiet = true ∧
      runOps 4 s = some (l, t) ∧ t.phase = .failed :=
  ⟨State.start Build.standard markerZ (.program [.reset, .answer (.byte 7), .answer (.err 1)] true),
    _, [.reset, .scanMiss, .scanFail, .halt], by decide, by decide, rfl, rfl⟩

/-- R111, by hand: a run whose first iteration fails in `SYNC`, and one `HALT` of it. -/
theorem test_runTrace : RunTrace 1 [.reset, .scanMiss, .scanFail, .halt] false :=
  .intro _ _ (.failed [.scanMiss, .scanFail] 1 (.noSync _ (.miss _ _ .fail)))

theorem witness_ObservationInfluencesNothing :
    ∃ s t : State, step s = .next t ∧ t.out ≠ s.out ∧ t.consumed = s.consumed :=
  ⟨displaying { ack := true }, _, rfl, by decide, by decide⟩

end Sys2Proof.Tests
end

/-! ## Register widths: what the invariant allows fits (O45) -/

namespace Sys2Proof

theorem Config.wf_iff (p : Build) (c : Config) :
    c.wf p = true ↔ 1 ≤ c.mlen ∧ c.marker.length = c.mlen ∧ atMost c.mlen p.maxl = true ∧
      fitsBits c.width p.dimBits = true ∧ fitsBits c.height p.dimBits = true := by
  simp [Config.wf, and_assoc]

@[simp] theorem atMost_some (n m : Nat) : atMost n (some m) = true ↔ n ≤ m := decide_eq_true_iff

@[simp] theorem fitsBits_some (n d : Nat) : fitsBits n (some d) = true ↔ n < 2 ^ d := decide_eq_true_iff

/-- `N` is a product of two `DIM_BITS`-bit numbers, and `CNT_BITS` is twice `DIM_BITS` (R7, R16). -/
theorem Config.frameLen_lt_two_pow_cntBits (p : Build) (c : Config) (b : Nat) (hc : c.wf p = true)
    (hb : p.cntBits = some b) : c.frameLen < 2 ^ b := by
  obtain ⟨d, hd, rfl⟩ := Option.map_eq_some_iff.mp hb
  obtain ⟨-, -, -, hwidth, hheight⟩ := (c.wf_iff p).mp hc
  rw [hd, fitsBits_some] at hwidth hheight
  calc c.frameLen = c.width * c.height := rfl
    _ < 2 ^ d * 2 ^ d := Nat.mul_lt_mul'' hwidth hheight
    _ = 2 ^ (2 * d) := by rw [two_mul, pow_add]

/-- `L` is at most `MAXL`, and `PROG_BITS` is wide enough for `MAXL` (R7). -/
theorem Config.mlen_lt_two_pow_progBits (p : Build) (c : Config) (b : Nat) (hc : c.wf p = true)
    (hb : p.progBits = some b) : c.mlen < 2 ^ b := by
  obtain ⟨m, hm, rfl⟩ := Option.map_eq_some_iff.mp hb
  obtain ⟨-, -, hmaxl, -, -⟩ := (c.wf_iff p).mp hc
  rw [hm, atMost_some] at hmaxl
  exact hmaxl.trans_lt Nat.lt_log2_self

namespace Machine

/-- `ERR` apart, every phase of R41 has the registers of the `SYNCING` or of the `READING` row. -/
theorem State.Inv.syncingRow_or_readingRow {s : State} (h : s.Inv) : s.SyncingRow ∨ s.ReadingRow := by
  cases hp : s.phase with
  | syncing => exact .inl (h.syncing hp).1
  | reading => exact .inr (h.reading hp).1
  | display => exact .inr (h.display hp).1
  | skip => exact .inr (h.skip hp).1
  | failed =>
    obtain ⟨-, row, -⟩ | ⟨-, row, -⟩ := h.failed hp
    · exact .inl row
    · exact .inr row

theorem State.Inv.count_le_frameLen {s : State} (h : s.Inv) : s.count ≤ s.frameLen := by
  obtain ⟨-, -, hcount, -⟩ | ⟨-, -, hcount, -⟩ := h.syncingRow_or_readingRow
  · simp [hcount]
  · exact hcount

theorem State.Inv.progress_le_markerLen {s : State} (h : s.Inv) : s.progress ≤ s.markerLen := by
  obtain ⟨hprogress, -⟩ | ⟨hprogress, -⟩ := h.syncingRow_or_readingRow
  · exact hprogress
  · simp [hprogress]

theorem cfgLegal_iff (s : State) :
    s.cfgLegal = true ↔ s.build.wf = true ∧ s.cfg.wf s.build = true := by
  simp [State.cfgLegal]

/-- Settles O45: `N` and `L` fit by the legality of the configuration, and the table of R41 bounds the two
counters by them. -/
theorem countersFitTheirRegisters : Obligations.CountersFitTheirRegisters := by
  intro s hinv hlegal
  obtain ⟨-, hcfg⟩ := (cfgLegal_iff s).mp hlegal
  constructor
  · intro b hb
    have hN := s.cfg.frameLen_lt_two_pow_cntBits s.build b hcfg hb
    exact ⟨hN, hinv.count_le_frameLen.trans_lt hN⟩
  · intro b hb
    have hL := s.cfg.mlen_lt_two_pow_progBits s.build b hcfg hb
    exact ⟨hL, hinv.progress_le_markerLen.trans_lt hL⟩

/-! ## Refusals of a run-time step (O17) -/

/-- In `DISPLAY` no read request is outstanding, so a byte or an error on offer is not looked at (R99). -/
theorem ev_of_display (s : State) (h : s.phase = .display) :
    s.ev = if s.input.ack = true then .ack else .none := by
  have hreq : s.requesting = false := by simp [State.requesting, h]
  simp [ev_of_not_requesting s hreq, h]

/-- An acknowledgement is looked at only in `DISPLAY` (R99). -/
theorem ev_ne_ack (s : State) (h : s.phase ≠ .display) : s.ev ≠ .ack := by
  cases hreq : s.requesting with
  | true =>
    rw [ev_of_requesting s hreq]
    split <;> simp
  | false => simp [ev_of_not_requesting s hreq, h]

/-- No state computes a reserved selector value (R104, R105): the reserved values of a legal phase have
`EV = ACK` in `SYNCING` or `READING`, or `EV = BYTE` or `EV = ERR` in `DISPLAY`. -/
theorem decodeSel_opsel_ne_none (s : State) : decodeSel s.opsel ≠ none := by
  rw [decodeSel_opsel, decodeSel_bits]
  cases hp : s.phase with
  | syncing =>
    have hev := ev_ne_ack s (by simp [hp])
    grind
  | reading =>
    have hev := ev_ne_ack s (by simp [hp])
    grind
  | display =>
    have hev := ev_of_display s hp
    grind
  | skip => grind
  | failed => grind

/-- At run time an objection is answered before the selected operation is looked at. -/
theorem step_of_objection (s : State) (r : Refusal) (hrst : s.input.rst = false)
    (hobj : s.objection = some r) : step s = .refused r := by
  obtain ⟨i, hi⟩ := Option.ne_none_iff_exists'.mp (decodeSel_opsel_ne_none s)
  have hsel : s.selected = .error r := by simp [State.selected, hi, hrst, hobj]
  simp [step, hsel]

/-- The order in which the reasons are answered (log entry 4). -/
theorem objection_of_not_running (s : State) (hrst : s.input.rst = false) (h : ¬ s.Running) :
    s.objection = some (if s.cfgStable = false then .configChanged
                        else if s.cfgLegal = false then .illegalConfig else .illegalInput) := by
  unfold State.objection
  cases hstable : s.cfgStable with
  | false => rfl
  | true =>
    cases hlegal : s.cfgLegal with
    | false => rfl
    | true =>
      have hsrc : s.srcLegal = false :=
        Bool.eq_false_iff.mpr fun hsrc => h ⟨hrst, hstable, hlegal, hsrc⟩
      simp [hsrc]

/-- Settles O17: outside the legal domain there is an objection, and the selector always decodes, so the
objection is what the step answers. -/
theorem stepRefusesIllegalRuns : Obligations.StepRefusesIllegalRuns := by
  intro s hrst hnot
  exact step_of_objection s _ hrst (objection_of_not_running s hrst hnot)

end Machine

end Sys2Proof

/-! ## When each operation is selected

The conditions of R99 and R100 as propositions, and what the selection of an operation says about the step. -/

namespace Sys2Proof.Machine

theorem requesting_iff (s : State) : s.requesting = true ↔
    (s.phase = .syncing ∧ s.progress < s.markerLen) ∨ (s.phase = .reading ∧ s.count < s.frameLen) := by
  unfold State.requesting
  cases s.phase <;> simp

theorem inReady_iff (s : State) (rst : Bool) :
    s.inReady rst = true ↔ rst = false ∧ s.requesting = true := by
  simp [State.inReady]

theorem tc_iff (s : State) : s.tc = true ↔
    (s.phase = .syncing ∧ s.progress = s.markerLen) ∨ (s.phase = .reading ∧ s.count = s.frameLen) := by
  simp [State.tc]

/-- A byte or an error counts as an event only while a read request is outstanding (R99). -/
theorem requesting_of_ev (s : State) (h : s.ev = .byte ∨ s.ev = .err) : s.requesting = true := by
  by_contra hreq
  rw [ev_of_not_requesting s (by simpa using hreq)] at h
  split at h <;> simp at h

/-- What the selector's fields say of a step that selects an operation: its phase (R27) and, where the
operation needs one, an outstanding read request or terminal count (R44, R100). -/
def State.Guard (s : State) : Instr → Prop
  | .reset => s.input.rst = true
  | .scanMatch => s.input.rst = false ∧ s.phase = .syncing ∧ s.progress < s.markerLen
  | .scanMiss => s.input.rst = false ∧ s.phase = .syncing ∧ s.progress < s.markerLen
  | .scanFail => s.input.rst = false ∧ s.phase = .syncing ∧ s.progress < s.markerLen
  | .scanDone => s.input.rst = false ∧ s.phase = .syncing ∧ s.progress = s.markerLen
  | .waitScan => s.input.rst = false ∧ s.phase = .syncing
  | .readStore => s.input.rst = false ∧ s.phase = .reading ∧ s.count < s.frameLen
  | .readFail => s.input.rst = false ∧ s.phase = .reading ∧ s.count < s.frameLen
  | .readDone => s.input.rst = false ∧ s.phase = .reading ∧ s.count = s.frameLen
  | .waitRead => s.input.rst = false ∧ s.phase = .reading
  | .pipeShow => s.input.rst = false ∧ s.phase = .display
  | .waitShow => s.input.rst = false ∧ s.phase = .display
  | .pipeSkip => s.input.rst = false ∧ s.phase = .skip
  | .halt => s.input.rst = false ∧ s.phase = .failed

/-- Only an operation whose guard holds is selected (R27, R100, R102). -/
theorem guard_of_decodeSel (s : State) (i : Instr) (h : decodeSel s.opsel = some i) : s.Guard i := by
  have hreq := requesting_of_ev s
  have htc := tc_iff s
  rw [requesting_iff] at hreq
  rw [decodeSel_opsel, decodeSel_bits] at h
  cases hrst : s.input.rst with
  | true =>
    obtain rfl : .reset = i := by simpa [hrst] using h
    exact hrst
  | false =>
    cases hp : s.phase with
    | syncing => cases hev : s.ev <;> grind [State.Guard]
    | reading => cases hev : s.ev <;> grind [State.Guard]
    | display => cases hev : s.ev <;> grind [State.Guard]
    | skip => grind [State.Guard]
    | failed => grind [State.Guard]

theorem guard_of_selected (s : State) (i : Instr) (h : s.selected = .ok i) : s.Guard i :=
  guard_of_decodeSel s i ((selected_eq_ok s i).mp h).1

/-- Any operation but `RESET` is selected at run time only. -/
theorem State.Guard.rst_eq_false {s : State} {i : Instr} (h : s.Guard i) (hi : i ≠ .reset) :
    s.input.rst = false := by
  cases i with
  | reset => exact absurd rfl hi
  | _ => exact h.1

theorem State.Guard.eq_reset {s : State} {i : Instr} (h : s.Guard i) (hrst : s.input.rst = true) :
    i = .reset := by
  by_contra hi
  simp [h.rst_eq_false hi] at hrst

/-- Any operation but `RESET` is selected only where there is no objection to the step. -/
theorem running_of_selected (s : State) (i : Instr) (h : s.selected = .ok i) (hi : i ≠ .reset) : s.Running := by
  have hrst := (guard_of_selected s i h).rst_eq_false hi
  obtain ⟨-, hobj⟩ := (selected_eq_ok s i).mp h
  exact ⟨hrst, (objection_eq_none s).mp (hobj.resolve_left (by simp [hrst]))⟩

theorem decodeSel_opsel_eq_scanDone (s : State) : decodeSel s.opsel = some .scanDone ↔
    s.input.rst = false ∧ s.phase = .syncing ∧ s.progress = s.markerLen := by
  refine ⟨guard_of_decodeSel s .scanDone, fun ⟨hrst, hp, hprogress⟩ => ?_⟩
  have htc : s.tc = true := (tc_iff s).mpr (.inl ⟨hp, hprogress⟩)
  simp [decodeSel_opsel, decodeSel_bits, hrst, hp, htc]

/-! ## What every completed operation has in common -/

/-- What an operation takes from its environment (R28, R173). -/
def takenBy : Instr → Taken
  | .scanMatch | .scanMiss | .readStore => .byte
  | .scanFail | .readFail => .error
  | .pipeShow => .ack
  | .reset | .scanDone | .waitScan | .readDone | .waitRead | .waitShow | .pipeSkip | .halt => .nothing

/-- How an operation `i` moves what lies around the six elements: the parameters and, without a reset, the
configuration stay, and the environment, the byte count and the answered flag follow what `i` takes. -/
structure MovesSurroundings (i : Instr) (s t : State) : Prop where
  build : t.build = s.build
  env : t.env = s.env.after (takenBy i)
  consumed : t.consumed = s.consumed + (takenBy i).bytes
  answered : t.answered = (takenBy i).answered
  cfg : i ≠ .reset → t.cfg = s.cfg

theorem movesSurroundings_of_exec_next (i : Instr) (s t : State) (h : exec i s = .next t) :
    MovesSurroundings i s t := by
  cases i with
  | reset =>
    obtain ⟨-, rfl⟩ := (exec_reset_next s t).mp h
    exact ⟨rfl, rfl, rfl, rfl, fun hi => absurd rfl hi⟩
  | scanMatch =>
    obtain ⟨-, -, rfl⟩ := (exec_scanMatch_next s t).mp h
    exact ⟨rfl, rfl, rfl, rfl, fun _ => rfl⟩
  | scanMiss =>
    obtain ⟨-, b, -, rfl⟩ := (exec_scanMiss_next s t).mp h
    exact ⟨rfl, rfl, rfl, rfl, fun _ => rfl⟩
  | scanDone =>
    obtain ⟨-, rfl⟩ := (exec_scanDone_next s t).mp h
    exact ⟨by simp, by simp [takenBy], by simp [takenBy], rfl, fun _ => by simp⟩
  | scanFail =>
    obtain ⟨-, c, -, rfl⟩ := (exec_scanFail_next s t).mp h
    exact ⟨rfl, rfl, rfl, rfl, fun _ => rfl⟩
  | waitScan =>
    obtain ⟨-, rfl⟩ := (exec_waitScan_next s t).mp h
    exact ⟨rfl, rfl, rfl, rfl, fun _ => rfl⟩
  | readStore =>
    obtain ⟨-, b, -, -, rfl⟩ := (exec_readStore_next s t).mp h
    exact ⟨rfl, rfl, rfl, rfl, fun _ => rfl⟩
  | readDone =>
    obtain ⟨-, rfl⟩ := (exec_readDone_next s t).mp h
    exact ⟨rfl, rfl, rfl, rfl, fun _ => rfl⟩
  | readFail =>
    obtain ⟨-, c, -, rfl⟩ := (exec_readFail_next s t).mp h
    exact ⟨rfl, rfl, rfl, rfl, fun _ => rfl⟩
  | waitRead =>
    obtain ⟨-, rfl⟩ := (exec_waitRead_next s t).mp h
    exact ⟨rfl, rfl, rfl, rfl, fun _ => rfl⟩
  | pipeShow =>
    obtain ⟨-, bytes, -, rfl⟩ := (exec_pipeShow_next s t).mp h
    exact ⟨rfl, rfl, rfl, rfl, fun _ => rfl⟩
  | waitShow =>
    obtain ⟨-, rfl⟩ := (exec_waitShow_next s t).mp h
    exact ⟨rfl, rfl, rfl, rfl, fun _ => rfl⟩
  | pipeSkip =>
    obtain ⟨-, rfl⟩ := (exec_pipeSkip_next s t).mp h
    exact ⟨rfl, rfl, rfl, rfl, fun _ => rfl⟩
  | halt =>
    obtain ⟨-, rfl⟩ := (exec_halt_next s t).mp h
    exact ⟨rfl, rfl, rfl, rfl, fun _ => rfl⟩

/-! ## Clean states and the rows of the table of R41 -/

/-- In `SYNCING` the other rows say nothing. -/
theorem State.Inv.of_syncing {s : State} (hp : s.phase = .syncing) (row : s.SyncingRow)
    (herr : s.err = Err.clear) : s.Inv where
  codeFits := by simp [herr, Err.clear]
  syncing _ := ⟨row, herr⟩
  reading h := by simp [hp] at h
  display h := by simp [hp] at h
  skip h := by simp [hp] at h
  failed h := by simp [hp] at h

theorem State.Inv.of_reading {s : State} (hp : s.phase = .reading) (row : s.ReadingRow)
    (herr : s.err = Err.clear) : s.Inv where
  codeFits := by simp [herr, Err.clear]
  syncing h := by simp [hp] at h
  reading _ := ⟨row, herr⟩
  display h := by simp [hp] at h
  skip h := by simp [hp] at h
  failed h := by simp [hp] at h

/-- The end of a read: which of the two phases follows is decided by `N` (R142). -/
theorem State.Inv.of_read_complete {s : State} (hp : s.phase = if s.emptyFrame then .skip else .display)
    (row : s.ReadingRow) (hcount : s.count = s.frameLen) (herr : s.err = Err.clear) : s.Inv where
  codeFits := by simp [herr, Err.clear]
  syncing h := by rw [hp] at h; split at h <;> contradiction
  reading h := by rw [hp] at h; split at h <;> contradiction
  display h := by
    have hN : s.frameLen ≠ 0 := fun hN => by simp [hp, State.emptyFrame, hN] at h
    exact ⟨row, hcount, Nat.pos_of_ne_zero hN, herr⟩
  skip h := by
    have hN : s.frameLen = 0 := by
      by_contra hN
      simp [hp, State.emptyFrame, hN] at h
    exact ⟨row, hN, herr⟩
  failed h := by rw [hp] at h; split at h <;> contradiction

theorem State.Inv.of_failed {s : State} (hp : s.phase = .failed) (hcode : s.err.code < 2 ^ s.build.errBits)
    (row : (s.err.cause = .syncIo ∧ s.SyncingRow ∧ s.progress < s.markerLen) ∨
      (s.err.cause = .readIo ∧ s.ReadingRow ∧ s.count < s.frameLen)) : s.Inv where
  codeFits := hcode
  syncing h := by simp [hp] at h
  reading h := by simp [hp] at h
  display h := by simp [hp] at h
  skip h := by simp [hp] at h
  failed _ := row

theorem State.Inv.of_clean {s : State} (h : s.Clean) : s.Inv := by
  obtain ⟨hphase, hprogress, hskipped, hcount, hfb, herr⟩ := h
  refine .of_syncing hphase ⟨by simp [hprogress], ?_, hcount, hfb⟩ herr
  cases hcap : s.build.skipCap <;> simp [State.skippedFits, hskipped, hcap, atMost]

/-- The end of a step moves nothing that the table speaks of. -/
theorem State.Inv.endStep {s : State} (h : s.Inv) (k : Taken) : (s.endStep k).Inv :=
  ⟨h.codeFits, h.syncing, h.reading, h.display, h.skip, h.failed⟩

/-- Settles O30: a clean state is in the `SYNCING` row. -/
theorem resetStateSatisfiesInv : Obligations.ResetStateSatisfiesInv :=
  ⟨⟨rfl, rfl, rfl, rfl, rfl, rfl⟩, fun _ => State.Inv.of_clean⟩

/-- Nothing is written to a buffer of length 0 (R41). -/
theorem State.ReadingRow.fb_eq_nil {s : State} (row : s.ReadingRow) (hN : s.frameLen = 0) : s.fb = [] := by
  obtain ⟨-, -, hcount, hfilled⟩ := row
  have hzero : s.count = 0 := by omega
  simpa [State.filledTo, hzero] using hfilled

/-- `RESET`, `PIPE.SHOW` and `PIPE.SKIP` end in the clean state: the first two by what they write, the last
because the frame it skips is empty, and both hand-overs because `ERR` is clear outside `FAILED` (R39). -/
theorem clean_of_exec_next (i : Instr) (s t : State) (hinv : s.Inv)
    (hi : i = .reset ∨ i = .pipeShow ∨ i = .pipeSkip) (h : exec i s = .next t) : t.Clean := by
  have hguard := guard_of_selected s i (selected_of_exec_next i s t h)
  obtain rfl | rfl | rfl := hi
  · obtain ⟨-, rfl⟩ := (exec_reset_next s t).mp h
    exact ⟨rfl, rfl, rfl, rfl, rfl, rfl⟩
  · obtain ⟨-, hp⟩ := hguard
    obtain ⟨-, -, -, herr⟩ := hinv.display hp
    obtain ⟨-, bytes, -, rfl⟩ := (exec_pipeShow_next s t).mp h
    exact ⟨rfl, rfl, rfl, rfl, rfl, herr⟩
  · obtain ⟨-, hp⟩ := hguard
    obtain ⟨row, hN, herr⟩ := hinv.skip hp
    have hfb : s.fb = [] := State.ReadingRow.fb_eq_nil row hN
    obtain ⟨-, rfl⟩ := (exec_pipeSkip_next s t).mp h
    exact ⟨rfl, rfl, rfl, rfl, hfb, herr⟩

/-! ## Every step keeps the table of R41 (O31) -/

/-- A store above every listed address goes to the end of the list. -/
theorem fbWrite_of_lt (cells : List Host.Cell) (k : Nat) (v : Byte) (h : ∀ c ∈ cells, c.1 < k) :
    fbWrite cells k v = cells ++ [(k, v)] := by
  induction cells with
  | nil => rfl
  | cons c rest ih =>
    obtain ⟨a, b⟩ := c
    have ha : a < k := h (a, b) (by simp)
    have hrest : ∀ c ∈ rest, c.1 < k := fun c hc => h c (by simp [hc])
    simp [fbWrite, ih hrest, ha.not_gt, ha.ne']

/-- A store at `k` extends a buffer filled to `k` by one cell (R141). -/
theorem map_fst_fbWrite (cells : List Host.Cell) (k : Nat) (v : Byte)
    (h : cells.map Prod.fst = List.range k) :
    (fbWrite cells k v).map Prod.fst = List.range (k + 1) := by
  have hlt : ∀ c ∈ cells, c.1 < k := fun c hc => by
    have hmem : c.1 ∈ cells.map Prod.fst := List.mem_map_of_mem hc
    simpa [h] using hmem
  simp [fbWrite_of_lt cells k v hlt, h, List.range_succ]

/-- The sub-code that a failing read records fits its register: the step is not refused (R10, R36). -/
theorem offeredCode_lt (s : State) (c : Nat) (hreq : s.requesting = true) (hsrc : s.srcLegal = true)
    (hc : s.offeredCode = some c) : c < 2 ^ s.build.errBits := by
  have hinput := (offeredCode_eq_some s c).mp hc
  simpa [State.srcLegal, hreq, hinput, Answer.wf] using hsrc

theorem scanMatch_keeps_inv (s t : State) (hinv : s.Inv) (h : exec .scanMatch s = .next t) : t.Inv := by
  obtain ⟨hsel, -, rfl⟩ := (exec_scanMatch_next s t).mp h
  obtain ⟨-, hp, hlt⟩ := guard_of_selected s _ hsel
  obtain ⟨⟨-, hfits, hcount, hfb⟩, herr⟩ := hinv.syncing hp
  exact .of_syncing hp ⟨hlt, hfits, hcount, hfb⟩ herr

theorem scanMiss_keeps_inv (s t : State) (hinv : s.Inv) (h : exec .scanMiss s = .next t) : t.Inv := by
  obtain ⟨hsel, b, -, rfl⟩ := (exec_scanMiss_next s t).mp h
  obtain ⟨-, hp, -⟩ := guard_of_selected s _ hsel
  obtain ⟨⟨-, hfits, hcount, hfb⟩, herr⟩ := hinv.syncing hp
  exact .of_syncing hp ⟨Nat.zero_le _, appendSkipped_fits _ _ b hfits, hcount, hfb⟩ herr

theorem scanDone_keeps_inv (s t : State) (hinv : s.Inv) (h : exec .scanDone s = .next t) : t.Inv := by
  obtain ⟨hsel, rfl⟩ := (exec_scanDone_next s t).mp h
  obtain ⟨-, hp, -⟩ := guard_of_selected s _ hsel
  obtain ⟨⟨-, -, -, hfb⟩, herr⟩ := hinv.syncing hp
  refine .of_reading rfl ⟨rfl, rfl, Nat.zero_le _, ?_⟩ ?_
  · simp [State.filledTo, hfb]
  · simp [herr]

theorem scanFail_keeps_inv (s t : State) (hinv : s.Inv) (h : exec .scanFail s = .next t) : t.Inv := by
  obtain ⟨hsel, c, hc, rfl⟩ := (exec_scanFail_next s t).mp h
  obtain ⟨-, hp, hlt⟩ := guard_of_selected s _ hsel
  obtain ⟨-, -, -, hsrc⟩ := running_of_selected s _ hsel (by simp)
  have hcode := offeredCode_lt s c ((requesting_iff s).mpr (.inl ⟨hp, hlt⟩)) hsrc hc
  exact .of_failed rfl hcode (.inl ⟨rfl, (hinv.syncing hp).1, hlt⟩)

theorem readStore_keeps_inv (s t : State) (hinv : s.Inv) (h : exec .readStore s = .next t) : t.Inv := by
  obtain ⟨hsel, b, -, hlt, rfl⟩ := (exec_readStore_next s t).mp h
  obtain ⟨-, hp, -⟩ := guard_of_selected s _ hsel
  obtain ⟨⟨hprogress, hskipped, -, hfilled⟩, herr⟩ := hinv.reading hp
  exact .of_reading hp ⟨hprogress, hskipped, hlt, map_fst_fbWrite _ _ b hfilled⟩ herr

theorem readDone_keeps_inv (s t : State) (hinv : s.Inv) (h : exec .readDone s = .next t) : t.Inv := by
  obtain ⟨hsel, rfl⟩ := (exec_readDone_next s t).mp h
  obtain ⟨-, hp, hcount⟩ := guard_of_selected s _ hsel
  obtain ⟨row, herr⟩ := hinv.reading hp
  exact .of_read_complete rfl row hcount herr

theorem readFail_keeps_inv (s t : State) (hinv : s.Inv) (h : exec .readFail s = .next t) : t.Inv := by
  obtain ⟨hsel, c, hc, rfl⟩ := (exec_readFail_next s t).mp h
  obtain ⟨-, hp, hlt⟩ := guard_of_selected s _ hsel
  obtain ⟨-, -, -, hsrc⟩ := running_of_selected s _ hsel (by simp)
  have hcode := offeredCode_lt s c ((requesting_iff s).mpr (.inr ⟨hp, hlt⟩)) hsrc hc
  exact .of_failed rfl hcode (.inr ⟨rfl, (hinv.reading hp).1, hlt⟩)

theorem exec_keeps_inv (i : Instr) (s t : State) (hinv : s.Inv) (h : exec i s = .next t) : t.Inv := by
  cases i with
  | reset => exact .of_clean (clean_of_exec_next _ s t hinv (by simp) h)
  | pipeShow => exact .of_clean (clean_of_exec_next _ s t hinv (by simp) h)
  | pipeSkip => exact .of_clean (clean_of_exec_next _ s t hinv (by simp) h)
  | scanMatch => exact scanMatch_keeps_inv s t hinv h
  | scanMiss => exact scanMiss_keeps_inv s t hinv h
  | scanDone => exact scanDone_keeps_inv s t hinv h
  | scanFail => exact scanFail_keeps_inv s t hinv h
  | readStore => exact readStore_keeps_inv s t hinv h
  | readDone => exact readDone_keeps_inv s t hinv h
  | readFail => exact readFail_keeps_inv s t hinv h
  | waitScan => obtain ⟨-, rfl⟩ := (exec_waitScan_next s t).mp h; exact hinv.endStep _
  | waitRead => obtain ⟨-, rfl⟩ := (exec_waitRead_next s t).mp h; exact hinv.endStep _
  | waitShow => obtain ⟨-, rfl⟩ := (exec_waitShow_next s t).mp h; exact hinv.endStep _
  | halt => obtain ⟨-, rfl⟩ := (exec_halt_next s t).mp h; exact hinv.endStep _

/-- Settles O31: a step executes the operation it selects, and each operation moves within the table. -/
theorem everyStepKeepsInv : Obligations.EveryStepKeepsInv := by
  intro s t hinv hstep
  obtain ⟨i, -, hexec⟩ := (step_next s t).mp hstep
  exact exec_keeps_inv i s t hinv hexec

end Sys2Proof.Machine

/-! ## The phase, the bytes and the configuration around a step (O19, O21, O34, O35) -/

namespace Sys2Proof.Machine

/-- Settles O19: the phase before is the one the operation's guard names, the phase after the one it
writes. -/
theorem phaseTransitionTable : Obligations.PhaseTransitionTable := by
  intro i s t h
  have hguard := guard_of_selected s i (selected_of_exec_next i s t h)
  cases i with
  | reset =>
    obtain ⟨-, rfl⟩ := (exec_reset_next s t).mp h
    rfl
  | scanMatch =>
    obtain ⟨-, hp, -⟩ := hguard
    obtain ⟨-, -, rfl⟩ := (exec_scanMatch_next s t).mp h
    exact ⟨hp, hp⟩
  | scanMiss =>
    obtain ⟨-, hp, -⟩ := hguard
    obtain ⟨-, b, -, rfl⟩ := (exec_scanMiss_next s t).mp h
    exact ⟨hp, hp⟩
  | scanDone =>
    obtain ⟨-, hp, -⟩ := hguard
    obtain ⟨-, rfl⟩ := (exec_scanDone_next s t).mp h
    exact ⟨hp, rfl⟩
  | scanFail =>
    obtain ⟨-, hp, -⟩ := hguard
    obtain ⟨-, c, -, rfl⟩ := (exec_scanFail_next s t).mp h
    exact ⟨hp, rfl⟩
  | waitScan =>
    obtain ⟨-, hp⟩ := hguard
    obtain ⟨-, rfl⟩ := (exec_waitScan_next s t).mp h
    exact ⟨hp, hp⟩
  | readStore =>
    obtain ⟨-, hp, -⟩ := hguard
    obtain ⟨-, b, -, -, rfl⟩ := (exec_readStore_next s t).mp h
    exact ⟨hp, hp⟩
  | readDone =>
    obtain ⟨-, hp, -⟩ := hguard
    obtain ⟨-, rfl⟩ := (exec_readDone_next s t).mp h
    refine ⟨hp, fun hN => ?_, fun hN => ?_⟩
    · simp [State.emptyFrame, hN.ne']
    · simp [State.emptyFrame, hN]
  | readFail =>
    obtain ⟨-, hp, -⟩ := hguard
    obtain ⟨-, c, -, rfl⟩ := (exec_readFail_next s t).mp h
    exact ⟨hp, rfl⟩
  | waitRead =>
    obtain ⟨-, hp⟩ := hguard
    obtain ⟨-, rfl⟩ := (exec_waitRead_next s t).mp h
    exact ⟨hp, hp⟩
  | pipeShow =>
    obtain ⟨-, hp⟩ := hguard
    obtain ⟨-, bytes, -, rfl⟩ := (exec_pipeShow_next s t).mp h
    exact ⟨hp, rfl⟩
  | waitShow =>
    obtain ⟨-, hp⟩ := hguard
    obtain ⟨-, rfl⟩ := (exec_waitShow_next s t).mp h
    exact ⟨hp, hp⟩
  | pipeSkip =>
    obtain ⟨-, hp⟩ := hguard
    obtain ⟨-, rfl⟩ := (exec_pipeSkip_next s t).mp h
    exact ⟨hp, rfl⟩
  | halt =>
    obtain ⟨-, hp⟩ := hguard
    obtain ⟨-, rfl⟩ := (exec_halt_next s t).mp h
    exact ⟨hp, hp⟩

theorem takenBy_bytes (i : Instr) :
    (takenBy i).bytes = if i = .scanMatch ∨ i = .scanMiss ∨ i = .readStore then 1 else 0 := by
  cases i <;> rfl

theorem takenBy_answered (i : Instr) : (takenBy i).answered = true ↔
    i = .scanMatch ∨ i = .scanMiss ∨ i = .readStore ∨ i = .scanFail ∨ i = .readFail := by
  cases i <;> simp [takenBy]

/-- Settles O21: both observations follow what the operation takes. -/
theorem bytesConsumedByOperation : Obligations.BytesConsumedByOperation := by
  intro i s t h
  have hmoves := movesSurroundings_of_exec_next i s t h
  rw [hmoves.consumed, hmoves.answered, takenBy_bytes]
  exact ⟨rfl, takenBy_answered i⟩

/-- Settles O34: `RESET` alone writes the configuration, and it is selected exactly with `rst = 1`. -/
theorem configurationMovesOnlyInReset : Obligations.ConfigurationMovesOnlyInReset := by
  intro s t hstep
  obtain ⟨i, hsel, hexec⟩ := (step_next s t).mp hstep
  have hguard := guard_of_selected s i hsel
  have hmoves := movesSurroundings_of_exec_next i s t hexec
  refine ⟨hmoves.build, fun hrst => hmoves.cfg ?_, fun hrst => ?_⟩
  · rintro rfl
    simp [State.Guard, hrst] at hguard
  · obtain rfl := hguard.eq_reset hrst
    obtain ⟨-, rfl⟩ := (exec_reset_next s t).mp hexec
    rfl

/-- The ways into `SYNCING` from another phase, read off the table of R27. -/
theorem enters_syncing (i : Instr) (s t : State) (h : exec i s = .next t) (hs : s.phase ≠ .syncing)
    (ht : t.phase = .syncing) : i = .reset ∨ i = .pipeShow ∨ i = .pipeSkip := by
  have htable := phaseTransitionTable i s t h
  cases i with
  | reset | pipeShow | pipeSkip => simp
  | scanMatch | scanMiss | waitScan | scanDone | scanFail => exact absurd htable.1 hs
  | readStore | waitRead | readFail | waitShow | halt => simp [ht] at htable
  | readDone =>
    obtain ⟨-, hdisplay, hskip⟩ := htable
    obtain hN | hN := (s.frameLen).eq_zero_or_pos
    · simp [ht, hN] at hskip
    · simp [ht, hN] at hdisplay

/-- Settles O35: only `PIPE.SHOW`, `PIPE.SKIP` and `RESET` enter `SYNCING` from another phase, and only
`RESET` is selected with `rst = 1`. -/
theorem iterationsStartClean : Obligations.IterationsStartClean := by
  intro s t hinv hstep ht hfrom
  obtain ⟨i, hsel, hexec⟩ := (step_next s t).mp hstep
  have hguard := guard_of_selected s i hsel
  refine clean_of_exec_next i s t hinv ?_ hexec
  obtain hp | hrst := hfrom
  · exact enters_syncing i s t hexec hp ht
  · exact .inl (hguard.eq_reset hrst)

end Sys2Proof.Machine

/-! ## What a step does not look at (O39, O40) -/

namespace Sys2Proof.Machine

theorem perform_congr {i : Instr} {s s' : State} {body body' : Result} (hsel : s'.selected = s.selected)
    (hbody : body' = body) : perform i s' body' = perform i s body := by
  rw [perform, perform, hsel, hbody]

theorem streamRead_congr {s s' : State} {body body' : Byte → Result} (hbyte : s'.offeredByte = s.offeredByte)
    (hbody : body' = body) : streamRead s' body' = streamRead s body := by
  rw [streamRead, streamRead, hbyte, hbody]

theorem readCode_congr {s s' : State} {body body' : Nat → Result} (hcode : s'.offeredCode = s.offeredCode)
    (hbody : body' = body) : readCode s' body' = readCode s body := by
  rw [readCode, readCode, hcode, hbody]

/-- `if |SKIPPED| > 0 then emit LOG(SKIPPED)` writes the output only (R123). -/
theorem State.emitLog_eq (s : State) :
    s.emitLog = { s with out := s.out ++ if s.skipped = [] then [] else [Event.log s.skipped] } := by
  rw [← s.emitLog_out]
  unfold State.emitLog
  split <;> rfl

/-- The state with `x` as the input record of the step, and `l` for the steps after it. -/
def State.feed (s : State) (x : In) (l : List In) : State := { s with env := .inputs (x :: l) }

@[simp] theorem State.feed_input (s : State) (x : In) (l : List In) : (s.feed x l).input = x := rfl
@[simp] theorem State.feed_phase (s : State) (x : In) (l : List In) : (s.feed x l).phase = s.phase := rfl
@[simp] theorem State.feed_requesting (s : State) (x : In) (l : List In) :
    (s.feed x l).requesting = s.requesting := rfl

theorem State.feed_of_env {s : State} {x : In} {l : List In} (h : s.env = .inputs (x :: l)) :
    s.feed x l = s := by
  rw [State.feed, ← h]

/-- A step of `s` cannot tell `y` from `x`: they agree on what it looks at, the answer only while `in_ready`
is 1 (R44), and the acknowledgement only in `DISPLAY` outside reset (R46). -/
structure State.Indistinct (s : State) (x y : In) : Prop where
  rst : y.rst = x.rst
  cfg : y.cfg = x.cfg
  src : s.inReady x.rst = true → y.src = x.src
  ack : x.rst = false → s.phase = .display → y.ack = x.ack

section
variable {s : State} {x y : In} (l : List In)

theorem State.Indistinct.src_of_requesting (h : s.Indistinct x y) (hrst : x.rst = false)
    (hreq : s.requesting = true) : y.src = x.src :=
  h.src ((inReady_iff s x.rst).mpr ⟨hrst, hreq⟩)

/-- The byte and the sub-code are read off the answer. -/
theorem State.offeredByte_feed (h : y.src = x.src) :
    (s.feed y l).offeredByte = (s.feed x l).offeredByte := by
  simp [State.offeredByte, h]

theorem State.offeredCode_feed (h : y.src = x.src) :
    (s.feed y l).offeredCode = (s.feed x l).offeredCode := by
  simp [State.offeredCode, h]

theorem State.Indistinct.ev_eq (h : s.Indistinct x y) (hrst : x.rst = false) :
    (s.feed y l).ev = (s.feed x l).ev := by
  cases hreq : s.requesting with
  | true =>
    rw [ev_of_requesting (s.feed y l) hreq, ev_of_requesting (s.feed x l) hreq]
    simp [h.src_of_requesting hrst hreq]
  | false =>
    rw [ev_of_not_requesting (s.feed y l) hreq, ev_of_not_requesting (s.feed x l) hreq]
    exact if_congr (and_congr_right fun hp => by simp [h.ack hrst hp]) rfl rfl

/-- `EQ` compares the offered byte only while a read request is outstanding (R100). -/
theorem State.Indistinct.eq_eq (h : s.Indistinct x y) (hrst : x.rst = false) :
    (s.feed y l).eq = (s.feed x l).eq := by
  cases hreq : s.requesting with
  | true =>
    have hbyte := State.offeredByte_feed (s := s) l (h.src_of_requesting hrst hreq)
    unfold State.eq
    rw [h.ev_eq l hrst, hbyte]
    rfl
  | false =>
    have hne (z : In) : (s.feed z l).ev ≠ .byte := fun hz => by
      simpa [hreq] using requesting_of_ev (s.feed z l) (.inl hz)
    simp [State.eq, hne]

theorem State.Indistinct.objection_eq (h : s.Indistinct x y) (hrst : x.rst = false) :
    (s.feed y l).objection = (s.feed x l).objection := by
  have hstable : (s.feed y l).cfgStable = (s.feed x l).cfgStable := by
    unfold State.cfgStable
    rw [State.feed_input, State.feed_input, h.cfg]
    rfl
  have hsrc : (s.feed y l).srcLegal = (s.feed x l).srcLegal := by
    cases hreq : s.requesting with
    | true =>
      unfold State.srcLegal
      rw [State.feed_input, State.feed_input, h.src_of_requesting hrst hreq]
      rfl
    | false => simp [State.srcLegal, hreq]
  unfold State.objection
  rw [hstable, hsrc]
  rfl

theorem State.Indistinct.shownCfg_eq (h : s.Indistinct x y) :
    (s.feed y l).shownCfg = (s.feed x l).shownCfg := by
  unfold State.shownCfg
  rw [State.feed_input, State.feed_input, h.cfg]
  rfl

theorem State.Indistinct.selected_eq (h : s.Indistinct x y) :
    (s.feed y l).selected = (s.feed x l).selected := by
  cases hrst : x.rst with
  | true =>
    have hreset (z : In) (hz : z.rst = true) : (s.feed z l).selected = .ok .reset :=
      (selected_eq_ok _ _).mpr ⟨by simp [decodeSel_opsel, decodeSel_bits, hz], .inl hz⟩
    rw [hreset y (h.rst.trans hrst), hreset x hrst]
  | false =>
    have htc : (s.feed y l).tc = (s.feed x l).tc := rfl
    have hsel : (s.feed y l).opsel = (s.feed x l).opsel := by
      simp [State.opsel, State.selector, h.rst, h.ev_eq l hrst, h.eq_eq l hrst, htc]
    unfold State.selected
    rw [hsel, h.objection_eq l hrst, State.feed_input, State.feed_input, h.rst]

/-- Of the operations only those selected while `in_ready` is 1 read the answer, and only `RESET` the
configuration on the buses. -/
theorem State.Indistinct.exec_eq (h : s.Indistinct x y) (i : Instr) (hi : (s.feed x l).selected = .ok i) :
    exec i (s.feed y l) = exec i (s.feed x l) := by
  have hsel := h.selected_eq l
  have hguard := guard_of_selected _ i hi
  cases i with
  | reset => exact perform_congr hsel (by rw [h.shownCfg_eq l]; rfl)
  | scanMatch | scanMiss =>
    have hsrc := h.src_of_requesting hguard.1 ((requesting_iff s).mpr (.inl hguard.2))
    exact perform_congr hsel (streamRead_congr (State.offeredByte_feed l hsrc) rfl)
  | scanFail =>
    have hsrc := h.src_of_requesting hguard.1 ((requesting_iff s).mpr (.inl hguard.2))
    exact perform_congr hsel (readCode_congr (State.offeredCode_feed l hsrc) rfl)
  | readStore =>
    have hsrc := h.src_of_requesting hguard.1 ((requesting_iff s).mpr (.inr hguard.2))
    exact perform_congr hsel (streamRead_congr (State.offeredByte_feed l hsrc) rfl)
  | readFail =>
    have hsrc := h.src_of_requesting hguard.1 ((requesting_iff s).mpr (.inr hguard.2))
    exact perform_congr hsel (readCode_congr (State.offeredCode_feed l hsrc) rfl)
  | scanDone => exact perform_congr hsel (by rw [State.emitLog_eq, State.emitLog_eq]; rfl)
  | waitScan | readDone | waitRead | pipeShow | waitShow | pipeSkip | halt => exact perform_congr hsel rfl

theorem State.Indistinct.step_eq (h : s.Indistinct x y) : step (s.feed y l) = step (s.feed x l) := by
  unfold step
  rw [h.selected_eq l]
  cases hsel : (s.feed x l).selected with
  | error r => rfl
  | ok i => exact h.exec_eq l i hsel

end

/-- Settles O39: with `in_ready` 0 the answer is not among what a step looks at. -/
theorem unsolicitedAnswerIgnored : Obligations.UnsolicitedAnswerIgnored := by
  intro s x l other henv hready
  have hsame : s.Indistinct x { x with src := other } :=
    ⟨rfl, rfl, fun h => by simp [hready] at h, fun _ _ => rfl⟩
  have hstep := hsame.step_eq l
  rwa [State.feed_of_env henv] at hstep

/-- Settles O40: outside `DISPLAY`, or in reset, `ack` is not among what a step looks at. -/
theorem unsolicitedAckIgnored : Obligations.UnsolicitedAckIgnored := by
  intro s x l other henv hack
  have hsame : s.Indistinct x { x with ack := other } :=
    ⟨rfl, rfl, fun _ => rfl, fun hrst hp => by simp [hrst, hp] at hack⟩
  have hstep := hsame.step_eq l
  rwa [State.feed_of_env henv] at hstep
end Sys2Proof.Machine

/-! ## The observation influences nothing (O41) -/

namespace Sys2Proof.Machine

/-- The state with another output so far, byte count and answered flag. -/
def State.observing (s : State) (o : List Event) (k : Nat) (a : Bool) : State :=
  { s with out := o, consumed := k, answered := a }

@[simp] theorem State.selected_observing (s : State) (o : List Event) (k : Nat) (a : Bool) :
    (s.observing o k a).selected = s.selected := rfl

/-- What `s` steps to under `i` differs from what `s` with another observation steps to in the observation
only, and both have the same events and the same count added to it. -/
def SameUnderObservation (i : Instr) (s t : State) (o : List Event) (k : Nat) (a : Bool) : Prop :=
  ∃ new d, t.out = s.out ++ new ∧ t.consumed = s.consumed + d ∧
    exec i (s.observing o k a) = .next { t with out := o ++ new, consumed := k + d }

/-- The case of an operation that emits nothing. -/
theorem SameUnderObservation.of_silent {i : Instr} {s t : State} {o : List Event} {k : Nat} {a : Bool}
    (d : Nat) (hout : t.out = s.out) (hconsumed : t.consumed = s.consumed + d)
    (h : exec i (s.observing o k a) = .next { t with out := o, consumed := k + d }) :
    SameUnderObservation i s t o k a :=
  ⟨[], d, by simp [hout], hconsumed, by simpa using h⟩

theorem sameUnderObservation_of_exec_next (i : Instr) (s t : State) (o : List Event) (k : Nat) (a : Bool)
    (h : exec i s = .next t) : SameUnderObservation i s t o k a := by
  cases i with
  | reset =>
    obtain ⟨hsel, rfl⟩ := (exec_reset_next s t).mp h
    exact .of_silent 0 rfl rfl ((exec_reset_next _ _).mpr ⟨hsel, rfl⟩)
  | scanMatch =>
    obtain ⟨hsel, hbyte, rfl⟩ := (exec_scanMatch_next s t).mp h
    exact .of_silent 1 rfl rfl ((exec_scanMatch_next _ _).mpr ⟨hsel, hbyte, rfl⟩)
  | scanMiss =>
    obtain ⟨hsel, b, hbyte, rfl⟩ := (exec_scanMiss_next s t).mp h
    exact .of_silent 1 rfl rfl ((exec_scanMiss_next _ _).mpr ⟨hsel, b, hbyte, rfl⟩)
  | scanDone =>
    obtain ⟨hsel, rfl⟩ := (exec_scanDone_next s t).mp h
    refine ⟨_, 0, s.emitLog_out, s.emitLog_consumed, (exec_scanDone_next _ _).mpr ⟨hsel, ?_⟩⟩
    rw [State.emitLog_eq, State.emitLog_eq]
    rfl
  | scanFail =>
    obtain ⟨hsel, c, hcode, rfl⟩ := (exec_scanFail_next s t).mp h
    exact ⟨_, 0, rfl, rfl, (exec_scanFail_next _ _).mpr ⟨hsel, c, hcode, rfl⟩⟩
  | waitScan =>
    obtain ⟨hsel, rfl⟩ := (exec_waitScan_next s t).mp h
    exact .of_silent 0 rfl rfl ((exec_waitScan_next _ _).mpr ⟨hsel, rfl⟩)
  | readStore =>
    obtain ⟨hsel, b, hbyte, hlt, rfl⟩ := (exec_readStore_next s t).mp h
    exact .of_silent 1 rfl rfl ((exec_readStore_next _ _).mpr ⟨hsel, b, hbyte, hlt, rfl⟩)
  | readDone =>
    obtain ⟨hsel, rfl⟩ := (exec_readDone_next s t).mp h
    exact .of_silent 0 rfl rfl ((exec_readDone_next _ _).mpr ⟨hsel, rfl⟩)
  | readFail =>
    obtain ⟨hsel, c, hcode, rfl⟩ := (exec_readFail_next s t).mp h
    exact ⟨_, 0, rfl, rfl, (exec_readFail_next _ _).mpr ⟨hsel, c, hcode, rfl⟩⟩
  | waitRead =>
    obtain ⟨hsel, rfl⟩ := (exec_waitRead_next s t).mp h
    exact .of_silent 0 rfl rfl ((exec_waitRead_next _ _).mpr ⟨hsel, rfl⟩)
  | pipeShow =>
    obtain ⟨hsel, bytes, hbytes, rfl⟩ := (exec_pipeShow_next s t).mp h
    exact ⟨_, 0, rfl, rfl, (exec_pipeShow_next _ _).mpr ⟨hsel, bytes, hbytes, rfl⟩⟩
  | waitShow =>
    obtain ⟨hsel, rfl⟩ := (exec_waitShow_next s t).mp h
    exact .of_silent 0 rfl rfl ((exec_waitShow_next _ _).mpr ⟨hsel, rfl⟩)
  | pipeSkip =>
    obtain ⟨hsel, rfl⟩ := (exec_pipeSkip_next s t).mp h
    exact .of_silent 0 rfl rfl ((exec_pipeSkip_next _ _).mpr ⟨hsel, rfl⟩)
  | halt =>
    obtain ⟨hsel, rfl⟩ := (exec_halt_next s t).mp h
    exact .of_silent 0 rfl rfl ((exec_halt_next _ _).mpr ⟨hsel, rfl⟩)

/-- Settles O41: the same operation is selected, and it adds the same to either observation. -/
theorem observationInfluencesNothing : Obligations.ObservationInfluencesNothing := by
  intro s t o k a hstep
  obtain ⟨i, hsel, hexec⟩ := (step_next s t).mp hstep
  obtain ⟨new, d, hout, hconsumed, hother⟩ := sameUnderObservation_of_exec_next i s t o k a hexec
  exact ⟨new, d, hout, hconsumed, (step_next _ _).mpr ⟨i, hsel, hother⟩⟩

/-! ## A stimulus program holds its answer (O44) -/

/-- An answer is on offer exactly when it is the next item of the program (R110). -/
theorem offer_src_eq_some (prompt display : Bool) (items : List Item) (a : Answer) :
    (Item.offer prompt display items).src = some a ↔ ∃ rest, Item.settle items = .answer a :: rest := by
  unfold Item.offer
  rcases Item.settle items with _ | ⟨_ | _ | _ | _, rest⟩ <;> simp

@[simp] theorem settle_answer (a : Answer) (rest : List Item) :
    Item.settle (.answer a :: rest) = .answer a :: rest := by
  simp [Item.settle]

/-- Settles O44: the answer on offer is the next item of the program, and only a step that takes an answer
removes such an item. -/
theorem stimulusHoldsUntakenAnswer : Obligations.StimulusHoldsUntakenAnswer := by
  intro s t items prompt a henv hsrc hstep hanswered
  obtain ⟨i, -, hexec⟩ := (step_next s t).mp hstep
  have hmoves := movesSurroundings_of_exec_next i s t hexec
  have htaken : (takenBy i).answered = false := hmoves.answered.symm.trans hanswered
  rw [State.input_program s items prompt henv, offer_src_eq_some] at hsrc
  obtain ⟨rest, hsettle⟩ := hsrc
  have henv' : t.env = .program (.answer a :: rest) prompt := by
    simp [hmoves.env, henv, itemsAfter, hsettle, htaken]
  rw [State.input_program t _ prompt henv', offer_src_eq_some]
  exact ⟨rest, settle_answer a rest⟩

/-! ## The pins (O46, O47, O48, O49) -/

/-- Settles O46: `in_ready` is the request of R99 outside reset. -/
theorem inReadyMeansReadOutstanding : Obligations.InReadyMeansReadOutstanding := by
  intro s rst
  rw [inReady_iff, requesting_iff]

theorem logValid_iff (s : State) (rst : Bool) : s.logValid rst = true ↔
    (rst = false ∧ s.phase = .syncing ∧ s.progress = s.markerLen) ∧ s.skipped ≠ [] := by
  simp [State.logValid, State.skipNonempty, List.length_pos_iff, and_assoc]

/-- Settles O47: the two conditions of `log_valid` are the guard of `SCAN.DONE` and R29. -/
theorem logValidMarksLoggingStep : Obligations.LogValidMarksLoggingStep := by
  intro s
  rw [logValid_iff, decodeSel_opsel_eq_scanDone]

/-- Where the written cells are `0 .. k-1`, a cell below `k` holds a byte (R41). -/
theorem fbRead_of_filledTo {s : State} {k i : Nat} (h : s.filledTo k) (hi : i < k) :
    ∃ b, fbRead s.fb i = some b := by
  rw [← Option.isSome_iff_exists, fbRead_isSome_iff_mem, h]
  exact List.mem_range.mpr hi

/-- Settles O48: in `DISPLAY` the buffer is filled to `N`. -/
theorem readPortShowsPresentedFrame : Obligations.ReadPortShowsPresentedFrame := by
  intro s raddr draw hinv hp hraddr
  obtain ⟨⟨-, -, -, hfilled⟩, hcount, -, -⟩ := hinv.display hp
  obtain ⟨b, hb⟩ := fbRead_of_filledTo hfilled (hcount ▸ hraddr)
  exact ⟨b, hb, by simp [State.fbRdata, hp, hraddr, hb]⟩

/-- Settles O49: `PinsIn.input` reads the pins as R42 does. -/
theorem pinsGiveStepInput : Obligations.PinsGiveStepInput :=
  fun _ => ⟨rfl, rfl, rfl⟩

end Sys2Proof.Machine

/-! ## A presented frame is read whole or not at all (O11, O42) -/

namespace Sys2Proof.Machine

/-- `PIPE.SHOW` is selected when the sink acknowledges the presented frame (R27, R99). -/
theorem decodeSel_opsel_eq_pipeShow (s : State) (hrst : s.input.rst = false) (hp : s.phase = .display)
    (hack : s.input.ack = true) : decodeSel s.opsel = some .pipeShow := by
  have hev : s.ev = .ack := by simp [ev_of_display s hp, hack]
  simp [decodeSel_opsel, decodeSel_bits, hrst, hp, hev]

theorem frameBytes_eq_none (s : State) :
    s.frameBytes = none ↔ ∃ i, i < s.frameLen ∧ fbRead s.fb i = none := by
  simpa [State.frameBytes] using fbReadRange_eq_none s.fb 0 s.frameLen

/-- Settles O11: `PIPE.SHOW` is selected, and the frame it reads has a cell without a value. -/
theorem pipeShowFaultsOnUnwrittenCell : Obligations.PipeShowFaultsOnUnwrittenCell := by
  intro s i hrun hp hack hi hcell
  have hsel := selected_of_running s .pipeShow hrun (decodeSel_opsel_eq_pipeShow s hrun.1 hp hack)
  have hframe : s.frameBytes = none := (frameBytes_eq_none s).mpr ⟨i, hi, hcell⟩
  change execPipeShow s = _
  rw [execPipeShow, perform_of_selected _ _ _ hsel, readFrame, hframe]

/-- The output grows from `s` to `t`, if at all, by events other than `FRAME`. -/
def AddsNoFrame (s t : State) : Prop :=
  ∃ new, t.out = s.out ++ new ∧ ∀ w h bytes, Event.frame w h bytes ∉ new

theorem AddsNoFrame.of_silent {s t : State} (hout : t.out = s.out) : AddsNoFrame s t :=
  ⟨[], by simp [hout], by simp⟩

/-- An operation only adds events, and none but `PIPE.SHOW` adds a `FRAME` (R172). -/
theorem addsNoFrame_of_exec_next (i : Instr) (s t : State) (h : exec i s = .next t) (hi : i ≠ .pipeShow) :
    AddsNoFrame s t := by
  cases i with
  | pipeShow => exact absurd rfl hi
  | scanDone =>
    obtain ⟨-, rfl⟩ := (exec_scanDone_next s t).mp h
    exact ⟨_, s.emitLog_out, by split <;> simp⟩
  | scanFail =>
    obtain ⟨-, c, -, rfl⟩ := (exec_scanFail_next s t).mp h
    exact ⟨_, s.raiseIoError_out .syncIo c, by simp⟩
  | readFail =>
    obtain ⟨-, c, -, rfl⟩ := (exec_readFail_next s t).mp h
    exact ⟨_, s.raiseIoError_out .readIo c, by simp⟩
  | reset => obtain ⟨-, rfl⟩ := (exec_reset_next s t).mp h; exact .of_silent rfl
  | scanMatch => obtain ⟨-, -, rfl⟩ := (exec_scanMatch_next s t).mp h; exact .of_silent rfl
  | scanMiss => obtain ⟨-, b, -, rfl⟩ := (exec_scanMiss_next s t).mp h; exact .of_silent rfl
  | waitScan => obtain ⟨-, rfl⟩ := (exec_waitScan_next s t).mp h; exact .of_silent rfl
  | readStore => obtain ⟨-, b, -, -, rfl⟩ := (exec_readStore_next s t).mp h; exact .of_silent rfl
  | readDone => obtain ⟨-, rfl⟩ := (exec_readDone_next s t).mp h; exact .of_silent rfl
  | waitRead => obtain ⟨-, rfl⟩ := (exec_waitRead_next s t).mp h; exact .of_silent rfl
  | waitShow => obtain ⟨-, rfl⟩ := (exec_waitShow_next s t).mp h; exact .of_silent rfl
  | pipeSkip => obtain ⟨-, rfl⟩ := (exec_pipeSkip_next s t).mp h; exact .of_silent rfl
  | halt => obtain ⟨-, rfl⟩ := (exec_halt_next s t).mp h; exact .of_silent rfl

/-- A step whose output grows by a `FRAME` is `PIPE.SHOW` (R172). -/
theorem eq_pipeShow_of_frame_added (i : Instr) (s t : State) (w h : Nat) (bytes : List Byte)
    (hexec : exec i s = .next t) (hout : t.out = s.out ++ [Event.frame w h bytes]) : i = .pipeShow := by
  by_contra hi
  obtain ⟨new, hnew, hnone⟩ := addsNoFrame_of_exec_next i s t hexec hi
  obtain rfl : new = [Event.frame w h bytes] := List.append_cancel_left (hnew.symm.trans hout)
  exact hnone w h bytes (List.mem_singleton_self _)

/-- Settles O42: the step is `PIPE.SHOW`, which emits what `MemRead(FB, 0, N)` gives, and the table of R41
has `N > 0` in `DISPLAY`. -/
theorem frameEventsAreComplete : Obligations.FrameEventsAreComplete := by
  intro s t w h bytes hinv hstep hout
  obtain ⟨i, hsel, hexec⟩ := (step_next s t).mp hstep
  obtain rfl := eq_pipeShow_of_frame_added i s t w h bytes hexec hout
  obtain ⟨-, hp⟩ := guard_of_selected s _ hsel
  obtain ⟨-, -, hN, -⟩ := hinv.display hp
  obtain ⟨-, shown, hshown, rfl⟩ := (exec_pipeShow_next s t).mp hexec
  obtain ⟨rfl, rfl, rfl⟩ : s.cfg.width = w ∧ s.cfg.height = h ∧ shown = bytes := by simpa using hout
  obtain ⟨hlen, hcells⟩ := (frameBytes_eq_some s shown).mp hshown
  exact ⟨rfl, rfl, hlen, hN, fun j hj => (hcells j hj).symm⟩

end Sys2Proof.Machine

/-! ## When a byte, or nothing, is on offer: which operation is selected -/

namespace Sys2Proof.Machine

theorem decodeSel_opsel_eq_scanMatch (s : State) (b : Byte) (hrst : s.input.rst = false)
    (hp : s.phase = .syncing) (hlt : s.progress < s.markerLen) (hsrc : s.input.src = some (.byte b))
    (hexpected : s.expected = some b) : decodeSel s.opsel = some .scanMatch := by
  have hev : s.ev = .byte := by
    simp [ev_of_requesting s ((requesting_iff s).mpr (.inl ⟨hp, hlt⟩)), hsrc]
  have htc : s.tc = false := by simp [State.tc, hp, hlt.ne]
  have heq : s.eq = true := by
    simp [State.eq, hp, hlt, hev, hexpected, (offeredByte_eq_some s b).mpr hsrc]
  simp [decodeSel_opsel, decodeSel_bits, hrst, hp, hev, htc, heq]

theorem decodeSel_opsel_eq_waitScan (s : State) (hrst : s.input.rst = false) (hp : s.phase = .syncing)
    (hlt : s.progress < s.markerLen) (hsrc : s.input.src = none) : decodeSel s.opsel = some .waitScan := by
  have hev : s.ev = .none := by
    simp [ev_of_requesting s ((requesting_iff s).mpr (.inl ⟨hp, hlt⟩)), hsrc]
  have htc : s.tc = false := by simp [State.tc, hp, hlt.ne]
  simp [decodeSel_opsel, decodeSel_bits, hrst, hp, hev, htc]

theorem decodeSel_opsel_eq_readStore (s : State) (b : Byte) (hrst : s.input.rst = false)
    (hp : s.phase = .reading) (hlt : s.count < s.frameLen) (hsrc : s.input.src = some (.byte b)) :
    decodeSel s.opsel = some .readStore := by
  have hev : s.ev = .byte := by
    simp [ev_of_requesting s ((requesting_iff s).mpr (.inr ⟨hp, hlt⟩)), hsrc]
  have htc : s.tc = false := by simp [State.tc, hp, hlt.ne]
  simp [decodeSel_opsel, decodeSel_bits, hrst, hp, hev, htc]

theorem decodeSel_opsel_eq_readDone (s : State) (hrst : s.input.rst = false) (hp : s.phase = .reading)
    (hcount : s.count = s.frameLen) : decodeSel s.opsel = some .readDone := by
  have htc : s.tc = true := (tc_iff s).mpr (.inr ⟨hp, hcount⟩)
  simp [decodeSel_opsel, decodeSel_bits, hrst, hp, htc]

end Sys2Proof.Machine

/-! ## Runs on a stream of bytes

A stimulus program that offers bytes only, to a prompt sink: what each step is offered, and what is left of
the stream after it. -/

namespace Sys2Proof.Machine

/-- Where a predicate indexed by the number of steps taken passes from every state of it to a next one, a run
of any length stays in it. -/
theorem runSteps_of_step {P : Nat → State → Prop}
    (hstep : ∀ k s, P k s → ∃ t, step s = .next t ∧ P (k + 1) t) (n k : Nat) (s : State) (h : P k s) :
    ∃ t, runSteps n s = .next t ∧ P (k + n) t := by
  induction n generalizing k s with
  | zero => exact ⟨s, rfl, h⟩
  | succ n ih =>
    obtain ⟨u, hu, hPu⟩ := hstep k s h
    obtain ⟨t, ht, hPt⟩ := ih (k + 1) u hPu
    exact ⟨t, (runSteps_succ n s t).mpr ⟨u, hu, ht⟩, by rwa [Nat.add_right_comm] at hPt⟩

/-- The stimulus items that deliver the bytes of a stream (R110). -/
def byteItems (bytes : List Byte) : List Item := bytes.map fun b => .answer (.byte b)

theorem offer_byteItems (display : Bool) (bytes : List Byte) :
    Item.offer true display (byteItems bytes) = { src := bytes.head?.map .byte, ack := display } := by
  cases bytes <;> simp [byteItems, Item.offer, Item.settle]

theorem itemsAfter_byteItems_cons (b : Byte) (rest : List Byte) :
    itemsAfter .byte (byteItems (b :: rest)) = byteItems rest := by
  simp [byteItems, itemsAfter]

/-- A byte stays on offer until a step takes the Byte Source's answer (R250). -/
theorem itemsAfter_byteItems_of_not_answered (k : Taken) (bytes : List Byte) (hk : k.answered = false) :
    itemsAfter k (byteItems bytes) = byteItems bytes := by
  cases bytes <;> simp [byteItems, itemsAfter, hk, Item.settle]

/-- The state runs under parameters `p` and configuration `c`, the stream still to come is `rest`, and `used`
bytes of it have been consumed. -/
structure State.Fed (p : Build) (c : Config) (rest : List Byte) (used : Nat) (s : State) : Prop where
  build : s.build = p
  cfg : s.cfg = c
  env : s.env = .program (byteItems rest) true
  consumed : s.consumed = used

section
variable {p : Build} {c : Config} {rest : List Byte} {used : Nat} {s t : State}

theorem State.Fed.input (h : s.Fed p c rest used) :
    s.input = { src := rest.head?.map .byte, ack := decide (s.phase = .display) } := by
  rw [State.input_program s _ _ h.env, offer_byteItems]

theorem State.Fed.running (h : s.Fed p c rest used) (hp : p.wf = true) (hc : c.wf p = true) : s.Running := by
  refine ⟨by simp [h.input], by simp [State.cfgStable, h.input], ?_, ?_⟩
  · exact (cfgLegal_iff s).mpr ⟨by rw [h.build, hp], by rw [h.build, h.cfg, hc]⟩
  · cases rest <;> simp [State.srcLegal, h.input, Answer.wf]

/-- A step that takes a byte takes the first one of the stream. -/
theorem State.Fed.take {b : Byte} {i : Instr} (h : s.Fed p c (b :: rest) used) (hi : takenBy i = .byte)
    (hexec : exec i s = .next t) : t.Fed p c rest (used + 1) := by
  have hmoves := movesSurroundings_of_exec_next i s t hexec
  refine ⟨hmoves.build.trans h.build, ?_, ?_, ?_⟩
  · exact (hmoves.cfg (by rintro rfl; simp [takenBy] at hi)).trans h.cfg
  · simp [hmoves.env, h.env, hi, itemsAfter_byteItems_cons]
  · simp [hmoves.consumed, h.consumed, hi]

/-- A step that takes no answer leaves the stream as it was. -/
theorem State.Fed.keep {i : Instr} (h : s.Fed p c rest used) (hreset : i ≠ .reset)
    (hi : (takenBy i).answered = false) (hexec : exec i s = .next t) : t.Fed p c rest used := by
  have hmoves := movesSurroundings_of_exec_next i s t hexec
  have hbytes : (takenBy i).bytes = 0 := by cases i <;> simp_all [takenBy]
  refine ⟨hmoves.build.trans h.build, (hmoves.cfg hreset).trans h.cfg, ?_, ?_⟩
  · simp [hmoves.env, h.env, itemsAfter_byteItems_of_not_answered _ _ hi]
  · simp [hmoves.consumed, h.consumed, hbytes]

end

/-! ## The marker and one frame (O58) -/

/-- The first `k` marker bytes of the record have matched, and nothing was skipped. -/
structure State.ScannedTo (p : Build) (c : Config) (payload : List Byte) (k : Nat) (s : State) : Prop where
  fed : s.Fed p c (c.marker.drop k ++ payload) k
  phase : s.phase = .syncing
  progress : s.progress = k
  skipped : s.skipped = []
  out : s.out = []

/-- The first `k` bytes of the payload are in the first `k` cells. -/
structure State.ReadTo (p : Build) (c : Config) (payload : List Byte) (k : Nat) (s : State) : Prop where
  fed : s.Fed p c (payload.drop k) (c.mlen + k)
  phase : s.phase = .reading
  count : s.count = k
  cells : ∀ j, j < k → fbRead s.fb j = payload[j]?
  out : s.out = []

/-- The payload is presented. -/
structure State.Presents (p : Build) (c : Config) (payload : List Byte) (s : State) : Prop where
  fed : s.Fed p c [] (c.mlen + c.frameLen)
  phase : s.phase = .display
  bytes : s.frameBytes = some payload
  out : s.out = []

/-- The payload has been handed over, and the scanner waits for a marker. -/
structure State.HandedOver (p : Build) (c : Config) (payload : List Byte) (s : State) : Prop where
  fed : s.Fed p c [] (c.mlen + c.frameLen)
  phase : s.phase = .syncing
  progress : s.progress = 0
  out : s.out = [Event.frame c.width c.height payload]

/-- Where a run on the record stands after a number of steps: one step for each byte, and one each for
`SCAN.DONE`, `READ.DONE` and `PIPE.SHOW`. -/
inductive State.RecordStage (p : Build) (c : Config) (payload : List Byte) : Nat → State → Prop where
  | scanning (k : Nat) (s : State) (hk : k ≤ c.mlen) (h : s.ScannedTo p c payload k) :
      RecordStage p c payload k s
  | reading (k : Nat) (s : State) (hk : k ≤ c.frameLen) (h : s.ReadTo p c payload k) :
      RecordStage p c payload (c.mlen + 1 + k) s
  | presenting (s : State) (h : s.Presents p c payload) :
      RecordStage p c payload (c.mlen + 1 + c.frameLen + 1) s
  | handedOver (m : Nat) (s : State) (h : s.HandedOver p c payload) :
      RecordStage p c payload (c.mlen + 1 + c.frameLen + 2 + m) s

/-- A step under a legal configuration is the operation that the selector decodes to (R102, R173). -/
theorem exec_step_next_of_decodeSel {i : Instr} {s t : State} (hrun : s.Running)
    (hdecode : decodeSel s.opsel = some i) (hexec : s.selected = .ok i → exec i s = .next t) :
    exec i s = .next t ∧ step s = .next t := by
  have hsel := selected_of_running s i hrun hdecode
  exact ⟨hexec hsel, (step_next s t).mpr ⟨i, hsel, hexec hsel⟩⟩

section
variable {p : Build} {c : Config} {payload : List Byte} {k : Nat} {s : State}

/-- `SCAN.MATCH`: the next byte of the record is the marker byte that is expected. -/
theorem State.ScannedTo.step_match (h : s.ScannedTo p c payload k) (hp : p.wf = true) (hc : c.wf p = true)
    (hk : k < c.mlen) : ∃ t, step s = .next t ∧ t.ScannedTo p c payload (k + 1) := by
  obtain ⟨fed, hphase, rfl, hskipped, hout⟩ := h
  obtain ⟨-, hmarker, -⟩ := (c.wf_iff p).mp hc
  have hk' : s.progress < c.marker.length := hmarker ▸ hk
  rw [List.drop_eq_getElem_cons hk', List.cons_append] at fed
  have hrun := fed.running hp hc
  have hsrc : s.input.src = some (.byte c.marker[s.progress]) := by simp [fed.input]
  have hdecode := decodeSel_opsel_eq_scanMatch s _ hrun.1 hphase (by rwa [State.markerLen, fed.cfg]) hsrc
    (by simp [State.expected, fed.cfg, hk'])
  obtain ⟨hexec, hstep⟩ := exec_step_next_of_decodeSel hrun hdecode fun hsel =>
    (exec_scanMatch_next s _).mpr ⟨hsel, ⟨_, (offeredByte_eq_some s _).mpr hsrc⟩, rfl⟩
  exact ⟨_, hstep, fed.take rfl hexec, hphase, rfl, hskipped, hout⟩

/-- `SCAN.DONE`: the marker is complete and there is nothing to log. -/
theorem State.ScannedTo.step_done (h : s.ScannedTo p c payload c.mlen) (hp : p.wf = true)
    (hc : c.wf p = true) : ∃ t, step s = .next t ∧ t.ReadTo p c payload 0 := by
  obtain ⟨fed, hphase, hprogress, hskipped, hout⟩ := h
  obtain ⟨-, hmarker, -⟩ := (c.wf_iff p).mp hc
  rw [← hmarker, List.drop_length, List.nil_append, hmarker] at fed
  have hrun := fed.running hp hc
  have hdecode := (decodeSel_opsel_eq_scanDone s).mpr
    ⟨hrun.1, hphase, by rw [hprogress, State.markerLen, fed.cfg]⟩
  obtain ⟨hexec, hstep⟩ := exec_step_next_of_decodeSel hrun hdecode fun hsel =>
    (exec_scanDone_next s _).mpr ⟨hsel, rfl⟩
  exact ⟨_, hstep, fed.keep (by simp) rfl hexec, rfl, rfl, by simp, by simp [hskipped, hout]⟩

/-- `READ.STORE`: the next byte of the payload goes to the next cell, and the cells below keep theirs. -/
theorem State.ReadTo.step_store (h : s.ReadTo p c payload k) (hp : p.wf = true) (hc : c.wf p = true)
    (hlen : payload.length = c.frameLen) (hk : k < c.frameLen) :
    ∃ t, step s = .next t ∧ t.ReadTo p c payload (k + 1) := by
  obtain ⟨fed, hphase, rfl, hcells, hout⟩ := h
  have hk' : s.count < payload.length := hlen ▸ hk
  rw [List.drop_eq_getElem_cons hk'] at fed
  have hrun := fed.running hp hc
  have hlt : s.count < s.frameLen := by rwa [State.frameLen, fed.cfg]
  have hsrc : s.input.src = some (.byte payload[s.count]) := by simp [fed.input]
  have hdecode := decodeSel_opsel_eq_readStore s _ hrun.1 hphase hlt hsrc
  obtain ⟨hexec, hstep⟩ := exec_step_next_of_decodeSel hrun hdecode fun hsel =>
    (exec_readStore_next s _).mpr ⟨hsel, _, (offeredByte_eq_some s _).mpr hsrc, hlt, rfl⟩
  refine ⟨_, hstep, fed.take rfl hexec, hphase, rfl, fun j hj => ?_, hout⟩
  obtain hj | rfl := Nat.lt_succ_iff_lt_or_eq.mp hj
  · exact (fbRead_fbWrite_ne _ _ _ _ hj.ne).trans (hcells j hj)
  · exact (fbRead_fbWrite_same _ _ _).trans (List.getElem?_eq_getElem hk').symm

/-- `READ.DONE`: every cell holds its byte of the payload, and the frame is not empty. -/
theorem State.ReadTo.step_done (h : s.ReadTo p c payload c.frameLen) (hp : p.wf = true) (hc : c.wf p = true)
    (hN : 0 < c.frameLen) (hlen : payload.length = c.frameLen) :
    ∃ t, step s = .next t ∧ t.Presents p c payload := by
  obtain ⟨fed, hphase, hcount, hcells, hout⟩ := h
  rw [← hlen, List.drop_length, hlen] at fed
  have hrun := fed.running hp hc
  have hframeLen : s.frameLen = c.frameLen := by rw [State.frameLen, fed.cfg]
  have hdecode := decodeSel_opsel_eq_readDone s hrun.1 hphase (hcount.trans hframeLen.symm)
  have hbytes : s.frameBytes = some payload :=
    (frameBytes_eq_some s payload).mpr (by rw [hframeLen]; exact ⟨hlen, hcells⟩)
  obtain ⟨hexec, hstep⟩ := exec_step_next_of_decodeSel hrun hdecode fun hsel =>
    (exec_readDone_next s _).mpr ⟨hsel, rfl⟩
  refine ⟨_, hstep, fed.keep (by simp) rfl hexec, ?_, hbytes, hout⟩
  simp [State.emptyFrame, hframeLen, hN.ne']

/-- `PIPE.SHOW`: a prompt sink takes the frame at once. -/
theorem State.Presents.step_show (h : s.Presents p c payload) (hp : p.wf = true) (hc : c.wf p = true) :
    ∃ t, step s = .next t ∧ t.HandedOver p c payload := by
  obtain ⟨fed, hphase, hbytes, hout⟩ := h
  have hrun := fed.running hp hc
  have hdecode := decodeSel_opsel_eq_pipeShow s hrun.1 hphase (by simp [fed.input, hphase])
  obtain ⟨hexec, hstep⟩ := exec_step_next_of_decodeSel hrun hdecode fun hsel =>
    (exec_pipeShow_next s _).mpr ⟨hsel, payload, hbytes, rfl⟩
  exact ⟨_, hstep, fed.keep (by simp) rfl hexec, rfl, rfl, by simp [hout, fed.cfg]⟩

/-- `WAIT.SCAN`: the stream has ended, and a marker has at least one byte. -/
theorem State.HandedOver.step_wait (h : s.HandedOver p c payload) (hp : p.wf = true) (hc : c.wf p = true) :
    ∃ t, step s = .next t ∧ t.HandedOver p c payload := by
  obtain ⟨fed, hphase, hprogress, hout⟩ := h
  obtain ⟨hL, -⟩ := (c.wf_iff p).mp hc
  have hrun := fed.running hp hc
  have hdecode := decodeSel_opsel_eq_waitScan s hrun.1 hphase
    (by rw [hprogress, State.markerLen, fed.cfg]; exact hL) (by simp [fed.input])
  obtain ⟨hexec, hstep⟩ := exec_step_next_of_decodeSel hrun hdecode fun hsel =>
    (exec_waitScan_next s _).mpr ⟨hsel, rfl⟩
  exact ⟨_, hstep, fed.keep (by simp) rfl hexec, hphase, hprogress, hout⟩

/-- Every step of a run on the record leads to the next stage. -/
theorem State.RecordStage.exists_next (hp : p.wf = true) (hc : c.wf p = true) (hN : 0 < c.frameLen)
    (hlen : payload.length = c.frameLen) (n : Nat) (s : State) (h : RecordStage p c payload n s) :
    ∃ t, step s = .next t ∧ RecordStage p c payload (n + 1) t := by
  cases h with
  | scanning _ _ hk h =>
    obtain hlt | rfl := hk.lt_or_eq
    · obtain ⟨t, hstep, ht⟩ := h.step_match hp hc hlt
      exact ⟨t, hstep, .scanning _ t hlt ht⟩
    · obtain ⟨t, hstep, ht⟩ := h.step_done hp hc
      exact ⟨t, hstep, .reading 0 t (Nat.zero_le _) ht⟩
  | reading k _ hk h =>
    obtain hlt | rfl := hk.lt_or_eq
    · obtain ⟨t, hstep, ht⟩ := h.step_store hp hc hlen hlt
      exact ⟨t, hstep, .reading (k + 1) t hlt ht⟩
    · obtain ⟨t, hstep, ht⟩ := h.step_done hp hc hN hlen
      exact ⟨t, hstep, .presenting t ht⟩
  | presenting _ h =>
    obtain ⟨t, hstep, ht⟩ := h.step_show hp hc
    exact ⟨t, hstep, .handedOver 0 t ht⟩
  | handedOver m _ h =>
    obtain ⟨t, hstep, ht⟩ := h.step_wait hp hc
    exact ⟨t, hstep, .handedOver (m + 1) t ht⟩

/-- The other stages lie before the hand-over. -/
theorem State.RecordStage.handedOver_of_le {n : Nat} (h : RecordStage p c payload n s)
    (hn : c.mlen + 1 + c.frameLen + 2 ≤ n) : s.HandedOver p c payload := by
  cases h with
  | scanning _ _ hk => omega
  | reading _ _ hk => omega
  | presenting => omega
  | handedOver _ _ h => exact h

theorem State.scannedTo_start (p : Build) (c : Config) (payload : List Byte) :
    (State.start p c (.program (byteItems (c.marker ++ payload)) true)).ScannedTo p c payload 0 :=
  ⟨⟨rfl, rfl, rfl, rfl⟩, rfl, rfl, rfl, rfl⟩

end

/-- Settles O58: the run goes through the stages of the record, and after the hand-over it only waits. -/
theorem cleanRecordYieldsItsPayload : Obligations.CleanRecordYieldsItsPayload := by
  intro p c payload hp hc hN hlen
  refine ⟨c.mlen + 1 + c.frameLen + 2, fun n hn => ?_⟩
  have hstart := State.RecordStage.scanning 0 _ (Nat.zero_le _) (State.scannedTo_start p c payload)
  obtain ⟨t, hrun, ht⟩ := runSteps_of_step (State.RecordStage.exists_next hp hc hN hlen) n 0 _ hstart
  have hdone := ht.handedOver_of_le (by omega)
  exact ⟨t, hrun, hdone.out, hdone.fed.consumed⟩

end Sys2Proof.Machine

/-! ## The encoding of the selector (O24, O25, O26, O27, O28) -/

namespace Sys2Proof

@[simp] theorem Phase.ofCode_code (p : Phase) : Phase.ofCode p.code = some p := by
  cases p <;> rfl

@[simp] theorem Ev.ofCode_code (e : Ev) : Ev.ofCode e.code = e := by
  cases e <;> rfl

section
variable (f : Selector)

/-- Bit `i` of `OPSEL` lies in the field that the widths below it leave (R101). -/
theorem Selector.getLsbD_bits (i : Nat) : f.bits.getLsbD i =
    if i < 1 then (BitVec.ofBool f.tc).getLsbD i
    else if i - 1 < 1 then (BitVec.ofBool f.eq).getLsbD (i - 1)
    else if i - 1 - 1 < 2 then f.ev.code.getLsbD (i - 1 - 1)
    else if i - 1 - 1 - 2 < 3 then f.phase.code.getLsbD (i - 1 - 1 - 2)
    else (BitVec.ofBool f.rst).getLsbD (i - 1 - 1 - 2 - 3) := by
  change (BitVec.ofBool f.rst ++ f.phase.code ++ f.ev.code ++ BitVec.ofBool f.eq ++ BitVec.ofBool f.tc :
    BitVec (1 + 3 + 2 + 1 + 1)).getLsbD i = _
  simp only [BitVec.getLsbD_append]

theorem Selector.getLsbD_bits_seven : f.bits.getLsbD 7 = f.rst := by
  rw [f.getLsbD_bits]
  simp

theorem Selector.extractLsb'_bits_phase : f.bits.extractLsb' 4 3 = f.phase.code := by
  refine BitVec.eq_of_getLsbD_eq fun i hi => ?_
  have hfield : 4 + i - 1 - 1 - 2 = i := by omega
  rw [BitVec.getLsbD_extractLsb', f.getLsbD_bits, if_neg (by omega), if_neg (by omega),
    if_neg (by omega), if_pos (by omega), hfield]
  simp [hi]

theorem Selector.extractLsb'_bits_ev : f.bits.extractLsb' 2 2 = f.ev.code := by
  refine BitVec.eq_of_getLsbD_eq fun i hi => ?_
  have hfield : 2 + i - 1 - 1 = i := by omega
  rw [BitVec.getLsbD_extractLsb', f.getLsbD_bits, if_neg (by omega), if_neg (by omega),
    if_pos (by omega), hfield]
  simp [hi]

theorem Selector.getLsbD_bits_one : f.bits.getLsbD 1 = f.eq := by
  rw [f.getLsbD_bits]
  simp

theorem Selector.getLsbD_bits_zero : f.bits.getLsbD 0 = f.tc := by
  rw [f.getLsbD_bits]
  simp

theorem Selector.ofBits_bits : Selector.ofBits f.bits = some f := by
  rw [Selector.ofBits, f.extractLsb'_bits_phase, f.extractLsb'_bits_ev, f.getLsbD_bits_seven,
    f.getLsbD_bits_one, f.getLsbD_bits_zero]
  simp

end

/-- Settles O28: each field reads back from its own bits, and so does the record of them. -/
theorem selectorFieldPositions : Obligations.SelectorFieldPositions :=
  fun f => ⟨f.getLsbD_bits_seven, f.extractLsb'_bits_phase, f.extractLsb'_bits_ev, f.getLsbD_bits_one,
    f.getLsbD_bits_zero, f.ofBits_bits⟩

/-- A selector value that two rows match agrees with both patterns on the bits that both rows test. -/
theorem OpRow.pattern_and_mask_eq_of_matches (r q : OpRow) (w : OpSel) (hr : r.matches w = true)
    (hq : q.matches w = true) : r.pattern &&& q.mask = q.pattern &&& r.mask := by
  have hr' : w &&& r.mask = r.pattern := by simpa [OpRow.matches] using hr
  have hq' : w &&& q.mask = q.pattern := by simpa [OpRow.matches] using hq
  rw [← hr', ← hq', BitVec.and_assoc, BitVec.and_assoc, BitVec.and_comm r.mask]

/-- Two different rows of the operation map differ in a bit that both test (R104). -/
theorem eq_of_pattern_and_mask_eq : ∀ r ∈ opMap, ∀ q ∈ opMap,
    r.pattern &&& q.mask = q.pattern &&& r.mask → r = q := by
  decide

theorem opRow_unique (w : OpSel) (r q : OpRow) (hr : r ∈ opMap) (hq : q ∈ opMap)
    (hrw : r.matches w = true) (hqw : q.matches w = true) : r = q :=
  eq_of_pattern_and_mask_eq r hr q hq (r.pattern_and_mask_eq_of_matches q w hrw hqw)

/-- The decoder answers the operation of a row that matches (R102). -/
theorem decodeSel_of_matches (w : OpSel) (r : OpRow) (hr : r ∈ opMap) (hrw : r.matches w = true) :
    decodeSel w = some r.instr := by
  have hsome : (opMap.find? fun r => r.matches w).isSome = true := List.find?_isSome.mpr ⟨r, hr, hrw⟩
  obtain ⟨q, hfind⟩ := Option.isSome_iff_exists.mp hsome
  have hqw : q.matches w = true := by simpa using List.find?_some hfind
  obtain rfl := opRow_unique w r q hr (List.mem_of_find?_eq_some hfind) hrw hqw
  exact Option.map_eq_some_iff.mpr ⟨r, hfind, rfl⟩

/-- Settles O26: no selector value has two rows, and the decoder finds the one it has. -/
theorem operationMapDisjoint : Obligations.OperationMapDisjoint := by
  intro w r q hr hq hrw hqw
  exact ⟨opRow_unique w r q hr hq hrw hqw, decodeSel_of_matches w r hr hrw⟩

/-- The canonical fields of an operation select it (R103). -/
theorem decodeSel_selector_bits (i : Instr) : decodeSel i.selector.bits = some i := by
  cases i <;> rfl

/-- The decoder reads one byte and leaves the bytes after it (R108). -/
theorem decode_cons_eq_ok (w : OpSel) (rest tail : List Byte) (i : Instr) :
    decode (w :: rest) = .ok (i, tail) ↔ decodeSel w = some i ∧ tail = rest := by
  cases h : decodeSel w <;> simp [decode, h, eq_comm]

/-- Settles O24: the encoder writes the one byte that selects the operation. -/
theorem decodeEncodeAgree : Obligations.DecodeEncodeAgree := by
  refine ⟨fun i rest => ?_, fun w i rest tail h => ?_, rfl⟩
  · exact (decode_cons_eq_ok _ rest rest i).mpr ⟨decodeSel_selector_bits i, rfl⟩
  · exact ((decode_cons_eq_ok w rest tail i).mp h).2

/-- A word of the opcode table is the one selector value (R108). -/
theorem decodeTableWord_eight (w : Nat) : decodeTableWord 8 w = decodeSel (BitVec.ofNat 8 w) := by
  cases h : decodeSel (BitVec.ofNat 8 w) <;> simp [decodeTableWord, layBytes, decode, h]

/-- The selector values that R105 reserves. -/
abbrev ReservedValue (n : Nat) : Prop :=
  n = 0x0C ∨ n = 0x0E ∨ n = 0x1C ∨ n = 0x1E ∨ (0x24 ≤ n ∧ n ≤ 0x2B) ∨ (0x50 ≤ n ∧ n ≤ 0x7F)

/-- By hexadecimal digits: the high one holds `RST` and `PHASE`, the low one `EV`, `EQ` and `TC` (R101). -/
theorem decodeSel_eq_none_of_digits : ∀ high low : Fin 16,
    decodeSel (BitVec.ofNat 8 (16 * high.val + low.val)) = none ↔
      ReservedValue (16 * high.val + low.val) := by
  decide

/-- Settles O25: a table word is its selector value, which is checked by its two hexadecimal digits. -/
theorem reservedSelectorsRefused : Obligations.ReservedSelectorsRefused := by
  intro w
  have h := decodeSel_eq_none_of_digits ⟨w.val / 16, by omega⟩ ⟨w.val % 16, by omega⟩
  rwa [Nat.div_add_mod, ← decodeTableWord_eight] at h

/-- Settles O27: the operation map, evaluated at the ten selector values. -/
theorem writtenWordsDecode : Obligations.WrittenWordsDecode := by
  simp only [Obligations.WrittenWordsDecode, decodeTableWord_eight]
  decide

end Sys2Proof

/-! ## Which operation is selected in the remaining cases (O18) -/

namespace Sys2Proof.Machine

section
variable {s : State}

theorem tc_eq_false_of_syncing (hp : s.phase = .syncing) (hne : s.progress ≠ s.markerLen) : s.tc = false := by
  simp [State.tc, hp, hne]

theorem tc_eq_false_of_reading (hp : s.phase = .reading) (hne : s.count ≠ s.frameLen) : s.tc = false := by
  simp [State.tc, hp, hne]

theorem decodeSel_opsel_eq_reset (hrst : s.input.rst = true) : decodeSel s.opsel = some .reset := by
  simp [decodeSel_opsel, decodeSel_bits, hrst]

theorem decodeSel_opsel_eq_halt (hrst : s.input.rst = false) (hp : s.phase = .failed) :
    decodeSel s.opsel = some .halt := by
  simp [decodeSel_opsel, decodeSel_bits, hrst, hp]

theorem decodeSel_opsel_eq_pipeSkip (hrst : s.input.rst = false) (hp : s.phase = .skip) :
    decodeSel s.opsel = some .pipeSkip := by
  simp [decodeSel_opsel, decodeSel_bits, hrst, hp]

theorem decodeSel_opsel_eq_waitShow (hrst : s.input.rst = false) (hp : s.phase = .display)
    (hack : s.input.ack = false) : decodeSel s.opsel = some .waitShow := by
  have hev : s.ev = .none := by simp [ev_of_display s hp, hack]
  simp [decodeSel_opsel, decodeSel_bits, hrst, hp, hev]

theorem decodeSel_opsel_eq_scanMiss (b : Byte) (hrst : s.input.rst = false) (hp : s.phase = .syncing)
    (hlt : s.progress < s.markerLen) (hsrc : s.input.src = some (.byte b)) (hexpected : s.expected ≠ some b) :
    decodeSel s.opsel = some .scanMiss := by
  have hev : s.ev = .byte := by
    simp [ev_of_requesting s ((requesting_iff s).mpr (.inl ⟨hp, hlt⟩)), hsrc]
  have heq : s.eq = false := by
    simp [State.eq, (offeredByte_eq_some s b).mpr hsrc, hexpected.symm]
  simp [decodeSel_opsel, decodeSel_bits, hrst, hp, hev, tc_eq_false_of_syncing hp hlt.ne, heq]

theorem decodeSel_opsel_eq_scanFail (c : Nat) (hrst : s.input.rst = false) (hp : s.phase = .syncing)
    (hlt : s.progress < s.markerLen) (hsrc : s.input.src = some (.err c)) :
    decodeSel s.opsel = some .scanFail := by
  have hev : s.ev = .err := by
    simp [ev_of_requesting s ((requesting_iff s).mpr (.inl ⟨hp, hlt⟩)), hsrc]
  simp [decodeSel_opsel, decodeSel_bits, hrst, hp, hev, tc_eq_false_of_syncing hp hlt.ne]

theorem decodeSel_opsel_eq_readFail (c : Nat) (hrst : s.input.rst = false) (hp : s.phase = .reading)
    (hlt : s.count < s.frameLen) (hsrc : s.input.src = some (.err c)) :
    decodeSel s.opsel = some .readFail := by
  have hev : s.ev = .err := by
    simp [ev_of_requesting s ((requesting_iff s).mpr (.inr ⟨hp, hlt⟩)), hsrc]
  simp [decodeSel_opsel, decodeSel_bits, hrst, hp, hev, tc_eq_false_of_reading hp hlt.ne]

theorem decodeSel_opsel_eq_waitRead (hrst : s.input.rst = false) (hp : s.phase = .reading)
    (hlt : s.count < s.frameLen) (hsrc : s.input.src = none) : decodeSel s.opsel = some .waitRead := by
  have hev : s.ev = .none := by
    simp [ev_of_requesting s ((requesting_iff s).mpr (.inr ⟨hp, hlt⟩)), hsrc]
  simp [decodeSel_opsel, decodeSel_bits, hrst, hp, hev, tc_eq_false_of_reading hp hlt.ne]

/-- Past the end of the marker no read is requested, so nothing on offer is looked at (log entry 10). -/
theorem decodeSel_opsel_eq_waitScan_of_gt (hrst : s.input.rst = false) (hp : s.phase = .syncing)
    (hgt : s.markerLen < s.progress) : decodeSel s.opsel = some .waitScan := by
  have hreq : s.requesting = false := by simp [State.requesting, hp, hgt.le]
  have hev : s.ev = .none := by simp [ev_of_not_requesting s hreq, hp]
  simp [decodeSel_opsel, decodeSel_bits, hrst, hp, hev, tc_eq_false_of_syncing hp hgt.ne']

/-- Past the end of the frame no read is requested, so nothing on offer is looked at (log entry 10). -/
theorem decodeSel_opsel_eq_waitRead_of_gt (hrst : s.input.rst = false) (hp : s.phase = .reading)
    (hgt : s.frameLen < s.count) : decodeSel s.opsel = some .waitRead := by
  have hreq : s.requesting = false := by simp [State.requesting, hp, hgt.le]
  have hev : s.ev = .none := by simp [ev_of_not_requesting s hreq, hp]
  simp [decodeSel_opsel, decodeSel_bits, hrst, hp, hev, tc_eq_false_of_reading hp hgt.ne']

end

/-- Settles O18: the phase decides first, then how the counter stands to its end, then the answer. -/
theorem selectionFollowsPrecedence : Obligations.SelectionFollowsPrecedence := by
  intro s
  cases hrst : s.input.rst with
  | true => simpa using decodeSel_opsel_eq_reset hrst
  | false =>
    cases hp : s.phase with
    | failed => simpa using decodeSel_opsel_eq_halt hrst hp
    | skip => simpa using decodeSel_opsel_eq_pipeSkip hrst hp
    | display =>
      cases hack : s.input.ack with
      | true => simpa using decodeSel_opsel_eq_pipeShow s hrst hp hack
      | false => simpa using decodeSel_opsel_eq_waitShow hrst hp hack
    | syncing =>
      obtain hlt | heq | hgt := lt_trichotomy s.progress s.markerLen
      · rcases hsrc : s.input.src with _ | (b | c)
        · simpa [hlt.ne, hlt.not_gt] using decodeSel_opsel_eq_waitScan s hrst hp hlt hsrc
        · by_cases hexpected : s.expected = some b
          · simpa [hlt.ne, hlt.not_gt, hexpected] using
              decodeSel_opsel_eq_scanMatch s b hrst hp hlt hsrc hexpected
          · simpa [hlt.ne, hlt.not_gt, hexpected] using
              decodeSel_opsel_eq_scanMiss b hrst hp hlt hsrc hexpected
        · simpa [hlt.ne, hlt.not_gt] using decodeSel_opsel_eq_scanFail c hrst hp hlt hsrc
      · simpa [heq] using (decodeSel_opsel_eq_scanDone s).mpr ⟨hrst, hp, heq⟩
      · simpa [hgt, hgt.ne'] using decodeSel_opsel_eq_waitScan_of_gt hrst hp hgt
    | reading =>
      obtain hlt | heq | hgt := lt_trichotomy s.count s.frameLen
      · rcases hsrc : s.input.src with _ | (b | c)
        · simpa [hlt.ne, hlt.not_gt] using decodeSel_opsel_eq_waitRead hrst hp hlt hsrc
        · simpa [hlt.ne, hlt.not_gt] using decodeSel_opsel_eq_readStore s b hrst hp hlt hsrc
        · simpa [hlt.ne, hlt.not_gt] using decodeSel_opsel_eq_readFail c hrst hp hlt hsrc
      · simpa [heq] using decodeSel_opsel_eq_readDone s hrst hp heq
      · simpa [hgt, hgt.ne'] using decodeSel_opsel_eq_waitRead_of_gt hrst hp hgt

/-! ## The selected operation executes and completes (O16, O32) -/

/-- What is selected in a reset, or at run time in the legal domain, is what the selector decodes to (R102). -/
theorem selected_of_decodeSel (s : State) (i : Instr) (hi : decodeSel s.opsel = some i)
    (h : s.input.rst = true ∨ s.Running) : s.selected = .ok i :=
  (selected_eq_ok s i).mpr ⟨hi, h.imp_right fun hrun => (objection_eq_none s).mpr hrun.2⟩

/-- Settles O16: the step asks `exec` for the operation selected and adds nothing. -/
theorem stepRunsSelectedOperation : Obligations.StepRunsSelectedOperation := by
  intro s i hi h
  simp [step, selected_of_decodeSel s i hi h]

/-- The three operations that take a byte are selected with `EV = BYTE`, the two that take an error with
`EV = ERR` (R103). -/
theorem ev_of_decodeSel (s : State) (i : Instr) (hi : decodeSel s.opsel = some i) :
    (takenBy i = .byte → s.ev = .byte) ∧ (takenBy i = .error → s.ev = .err) := by
  rw [decodeSel_opsel, decodeSel_bits] at hi
  cases hp : s.phase with
  | syncing => cases hev : s.ev <;> grind [takenBy]
  | reading => cases hev : s.ev <;> grind [takenBy]
  | display => cases hev : s.ev <;> grind [takenBy]
  | skip => grind [takenBy]
  | failed => grind [takenBy]

theorem exists_offeredByte_of_ev (s : State) (h : s.ev = .byte) : ∃ b, s.offeredByte = some b := by
  rw [ev_of_requesting s (requesting_of_ev s (.inl h))] at h
  rcases hsrc : s.input.src with _ | (b | c)
  · simp [hsrc] at h
  · exact ⟨b, (offeredByte_eq_some s b).mpr hsrc⟩
  · simp [hsrc] at h

theorem exists_offeredCode_of_ev (s : State) (h : s.ev = .err) : ∃ c, s.offeredCode = some c := by
  rw [ev_of_requesting s (requesting_of_ev s (.inr h))] at h
  rcases hsrc : s.input.src with _ | (b | c)
  · simp [hsrc] at h
  · simp [hsrc] at h
  · exact ⟨c, (offeredCode_eq_some s c).mpr hsrc⟩

/-- A selected operation that takes a byte has one on offer. -/
theorem exists_offeredByte_of_selected {s : State} {i : Instr} (hsel : s.selected = .ok i)
    (hi : takenBy i = .byte) : ∃ b, s.offeredByte = some b :=
  exists_offeredByte_of_ev s ((ev_of_decodeSel s i ((selected_eq_ok s i).mp hsel).1).1 hi)

/-- A selected operation that takes an error has one on offer. -/
theorem exists_offeredCode_of_selected {s : State} {i : Instr} (hsel : s.selected = .ok i)
    (hi : takenBy i = .error) : ∃ c, s.offeredCode = some c :=
  exists_offeredCode_of_ev s ((ev_of_decodeSel s i ((selected_eq_ok s i).mp hsel).1).2 hi)

/-- A presented frame is written whole (R41), so it can be read. -/
theorem State.Inv.exists_frameBytes {s : State} (hinv : s.Inv) (hp : s.phase = .display) :
    ∃ bytes, s.frameBytes = some bytes := by
  obtain ⟨⟨-, -, -, hfilled⟩, hcount, -⟩ := hinv.display hp
  refine Option.ne_none_iff_exists'.mp fun hnone => ?_
  obtain ⟨i, hi, hcell⟩ := (frameBytes_eq_none s).mp hnone
  obtain ⟨b, hb⟩ := fbRead_of_filledTo hfilled (hcount ▸ hi)
  simp [hcell] at hb

/-- Every operation completes where it is selected: it has its answer, its cell and its frame. -/
theorem exists_exec_next (i : Instr) (s : State) (hinv : s.Inv) (hsel : s.selected = .ok i) :
    ∃ t, exec i s = .next t := by
  have hguard := guard_of_selected s i hsel
  cases i with
  | reset => exact ⟨_, (exec_reset_next s _).mpr ⟨hsel, rfl⟩⟩
  | scanMatch =>
    have hbyte := exists_offeredByte_of_selected hsel rfl
    exact ⟨_, (exec_scanMatch_next s _).mpr ⟨hsel, hbyte, rfl⟩⟩
  | scanMiss =>
    obtain ⟨b, hb⟩ := exists_offeredByte_of_selected hsel rfl
    exact ⟨_, (exec_scanMiss_next s _).mpr ⟨hsel, b, hb, rfl⟩⟩
  | scanDone => exact ⟨_, (exec_scanDone_next s _).mpr ⟨hsel, rfl⟩⟩
  | scanFail =>
    obtain ⟨c, hc⟩ := exists_offeredCode_of_selected hsel rfl
    exact ⟨_, (exec_scanFail_next s _).mpr ⟨hsel, c, hc, rfl⟩⟩
  | waitScan => exact ⟨_, (exec_waitScan_next s _).mpr ⟨hsel, rfl⟩⟩
  | readStore =>
    obtain ⟨-, -, hlt⟩ := hguard
    obtain ⟨b, hb⟩ := exists_offeredByte_of_selected hsel rfl
    exact ⟨_, (exec_readStore_next s _).mpr ⟨hsel, b, hb, hlt, rfl⟩⟩
  | readDone => exact ⟨_, (exec_readDone_next s _).mpr ⟨hsel, rfl⟩⟩
  | readFail =>
    obtain ⟨c, hc⟩ := exists_offeredCode_of_selected hsel rfl
    exact ⟨_, (exec_readFail_next s _).mpr ⟨hsel, c, hc, rfl⟩⟩
  | waitRead => exact ⟨_, (exec_waitRead_next s _).mpr ⟨hsel, rfl⟩⟩
  | pipeShow =>
    obtain ⟨-, hp⟩ := hguard
    obtain ⟨bytes, hbytes⟩ := hinv.exists_frameBytes hp
    exact ⟨_, (exec_pipeShow_next s _).mpr ⟨hsel, bytes, hbytes, rfl⟩⟩
  | waitShow => exact ⟨_, (exec_waitShow_next s _).mpr ⟨hsel, rfl⟩⟩
  | pipeSkip => exact ⟨_, (exec_pipeSkip_next s _).mpr ⟨hsel, rfl⟩⟩
  | halt => exact ⟨_, (exec_halt_next s _).mpr ⟨hsel, rfl⟩⟩

/-- Settles O32: the selector always decodes, the operation it names is selected, and it completes. -/
theorem runningStepCompletes : Obligations.RunningStepCompletes := by
  intro s hinv h
  obtain ⟨i, hi⟩ := Option.ne_none_iff_exists'.mp (decodeSel_opsel_ne_none s)
  have hsel := selected_of_decodeSel s i hi h
  obtain ⟨t, hexec⟩ := exists_exec_next i s hinv hsel
  exact ⟨t, (step_next s t).mpr ⟨i, hsel, hexec⟩⟩

end Sys2Proof.Machine

/-! ## Operation traces of an iteration (R111) -/

namespace Sys2Proof.Machine

/-- The operation traces of what follows `SYNC` in an iteration with frames of `n` bytes, `k` of them still
to read, with `true` for one that does not fail. -/
inductive FrameTrace (n k : Nat) : List Instr → Bool → Prop where
  | noFrame (b : List Instr) (hb : ReadFrameTrace k b false) : FrameTrace n k b false
  | whole (b c : List Instr) (hb : ReadFrameTrace k b true) (hc : HandOverTrace n c) :
      FrameTrace n k (b ++ c) true

section
variable {n k : Nat} {l : List Instr} {r : Bool}

theorem FrameTrace.readStore (h : FrameTrace n k l r) : FrameTrace n (k + 1) (.readStore :: l) r := by
  cases h with
  | noFrame _ hb => exact .noFrame _ (.store k _ _ hb)
  | whole b c hb hc => exact .whole (.readStore :: b) c (.store k _ _ hb) hc

theorem FrameTrace.waitRead (h : FrameTrace n (k + 1) l r) : FrameTrace n (k + 1) (.waitRead :: l) r := by
  cases h with
  | noFrame _ hb => exact .noFrame _ (.wait k _ _ hb)
  | whole b c hb hc => exact .whole (.waitRead :: b) c (.wait k _ _ hb) hc

theorem FrameTrace.readDone (h : HandOverTrace n l) : FrameTrace n 0 (.readDone :: l) true :=
  .whole [.readDone] l .done h

theorem HandOverTrace.waitShow (h : HandOverTrace n l) (hn : 0 < n) : HandOverTrace n (.waitShow :: l) := by
  obtain ⟨m, rfl⟩ := Nat.exists_eq_add_one.mpr hn
  exact .wait m l h

/-! What is left of an iteration can always be completed, at once or by a failure. -/

theorem exists_handOverTrace (n : Nat) : ∃ l, HandOverTrace n l := by
  cases n with
  | zero => exact ⟨_, .skip⟩
  | succ n => exact ⟨_, .shown n⟩

theorem exists_frameTrace (n k : Nat) : ∃ l r, FrameTrace n k l r := by
  cases k with
  | zero =>
    obtain ⟨l, hl⟩ := exists_handOverTrace n
    exact ⟨_, _, .readDone hl⟩
  | succ k => exact ⟨_, _, .noFrame _ (.fail k)⟩

/-- An operation by which `SYNC` goes on may stand before any iteration. -/
theorem IterationTrace.cons {i : Instr} (hi : ∀ a q, SyncTrace a q → SyncTrace (i :: a) q)
    (h : IterationTrace n l r) : IterationTrace n (i :: l) r := by
  cases h with
  | noSync _ ha => exact .noSync _ (hi _ _ ha)
  | noFrame a b ha hb => exact .noFrame (i :: a) b (hi _ _ ha) hb
  | whole a b c ha hb hc => exact .whole (i :: a) b c (hi _ _ ha) hb hc

theorem FrameTrace.scanDone (h : FrameTrace n n l r) : IterationTrace n (.scanDone :: l) r := by
  cases h with
  | noFrame _ hb => exact .noFrame [.scanDone] l .done hb
  | whole b c hb hc => exact .whole [.scanDone] b c .done hb hc

end

/-! ## Iterations of the step function (O59) -/

/-- The operations `l` would bring the iteration that the state is in to its end, with `true` for one that
does not fail. -/
def State.FinishesBy (s : State) (l : List Instr) (r : Bool) : Prop :=
  match s.phase with
  | .syncing => IterationTrace s.frameLen l r
  | .reading => FrameTrace s.frameLen (s.frameLen - s.count) l r
  | .display | .skip => HandOverTrace s.frameLen l ∧ r = true
  | .failed => False

section
variable {s u : State} {i : Instr} {l : List Instr} {r : Bool}

theorem State.finishesBy_of_syncing (hp : s.phase = .syncing) :
    s.FinishesBy l r ↔ IterationTrace s.frameLen l r := by
  simp [State.FinishesBy, hp]

theorem State.finishesBy_of_reading (hp : s.phase = .reading) :
    s.FinishesBy l r ↔ FrameTrace s.frameLen (s.frameLen - s.count) l r := by
  simp [State.FinishesBy, hp]

theorem State.finishesBy_of_handOver (hp : s.phase = .display ∨ s.phase = .skip) :
    s.FinishesBy l r ↔ HandOverTrace s.frameLen l ∧ r = true := by
  obtain hp | hp := hp <;> simp [State.FinishesBy, hp]

theorem State.FinishesBy.iterationTrace (h : s.FinishesBy l r) (hp : s.phase = .syncing) :
    IterationTrace s.frameLen l r :=
  (s.finishesBy_of_syncing hp).mp h

theorem State.FinishesBy.frameTrace (h : s.FinishesBy l r) (hp : s.phase = .reading) :
    FrameTrace s.frameLen (s.frameLen - s.count) l r :=
  (s.finishesBy_of_reading hp).mp h

theorem State.FinishesBy.handOverTrace (h : s.FinishesBy l r) (hp : s.phase = .display ∨ s.phase = .skip) :
    HandOverTrace s.frameLen l ∧ r = true :=
  (s.finishesBy_of_handOver hp).mp h

theorem State.not_finishesBy_of_failed (hp : s.phase = .failed) : ¬ s.FinishesBy l r := by
  simp [State.FinishesBy, hp]

/-- While bytes are missing the count of those still to read is a successor. -/
theorem frameLen_sub_count (h : s.count < s.frameLen) :
    s.frameLen - s.count = s.frameLen - (s.count + 1) + 1 := by
  omega

/-- In a state of the table `WAIT.READ` waits for a byte that is missing: at terminal count `READ.DONE` is
selected. -/
theorem State.Inv.count_lt_of_waitRead (hinv : s.Inv) (hsel : s.selected = .ok .waitRead) :
    s.count < s.frameLen := by
  obtain ⟨hrst, hp⟩ := guard_of_selected s _ hsel
  refine hinv.count_le_frameLen.lt_of_ne fun hcount => ?_
  have hdecode := ((selected_eq_ok s _).mp hsel).1
  simp [decodeSel_opsel_eq_readDone s hrst hp hcount] at hdecode

/-- An operation that ends an iteration is the last of it, and it fails exactly by the two failures. -/
theorem State.finishesBy_singleton (hinv : s.Inv) (hexec : exec i s = .next u) (hi : endsIteration i = true) :
    s.FinishesBy [i] (decide (i = .pipeShow ∨ i = .pipeSkip)) := by
  have hguard := guard_of_selected s i (selected_of_exec_next i s u hexec)
  cases i with
  | pipeShow =>
    obtain ⟨-, hp⟩ := hguard
    obtain ⟨-, -, hN, -⟩ := hinv.display hp
    refine (s.finishesBy_of_handOver (.inl hp)).mpr ⟨?_, rfl⟩
    rw [← Nat.succ_pred_eq_of_pos hN]
    exact .shown _
  | pipeSkip =>
    obtain ⟨-, hp⟩ := hguard
    obtain ⟨-, hN, -⟩ := hinv.skip hp
    refine (s.finishesBy_of_handOver (.inr hp)).mpr ⟨?_, rfl⟩
    rw [hN]
    exact .skip
  | scanFail =>
    obtain ⟨-, hp, -⟩ := hguard
    exact (s.finishesBy_of_syncing hp).mpr (.noSync _ .fail)
  | readFail =>
    obtain ⟨-, hp, hlt⟩ := hguard
    rw [s.finishesBy_of_reading hp, frameLen_sub_count hlt]
    exact .noFrame _ (.fail _)
  | _ => simp [endsIteration] at hi

/-- An operation that does not end the iteration stands before what ends it from the next state. -/
theorem State.FinishesBy.cons (hinv : s.Inv) (hexec : exec i s = .next u) (hreset : i ≠ .reset)
    (hi : endsIteration i = false) (h : u.FinishesBy l r) : s.FinishesBy (i :: l) r := by
  have hsel := selected_of_exec_next i s u hexec
  have hguard := guard_of_selected s i hsel
  cases i with
  | scanMatch =>
    obtain ⟨-, hp, -⟩ := hguard
    obtain ⟨-, -, rfl⟩ := (exec_scanMatch_next s u).mp hexec
    exact (s.finishesBy_of_syncing hp).mpr ((h.iterationTrace hp).cons .hit)
  | scanMiss =>
    obtain ⟨-, hp, -⟩ := hguard
    obtain ⟨-, b, -, rfl⟩ := (exec_scanMiss_next s u).mp hexec
    exact (s.finishesBy_of_syncing hp).mpr ((h.iterationTrace hp).cons .miss)
  | waitScan =>
    obtain ⟨-, hp⟩ := hguard
    obtain ⟨-, rfl⟩ := (exec_waitScan_next s u).mp hexec
    exact (s.finishesBy_of_syncing hp).mpr ((h.iterationTrace hp).cons .wait)
  | scanDone =>
    obtain ⟨-, hp, -⟩ := hguard
    obtain ⟨-, rfl⟩ := (exec_scanDone_next s u).mp hexec
    have hframe : FrameTrace s.frameLen s.frameLen l r := by simpa using h.frameTrace rfl
    exact (s.finishesBy_of_syncing hp).mpr hframe.scanDone
  | readStore =>
    obtain ⟨-, hp, hlt⟩ := hguard
    obtain ⟨-, b, -, -, rfl⟩ := (exec_readStore_next s u).mp hexec
    rw [s.finishesBy_of_reading hp, frameLen_sub_count hlt]
    exact (h.frameTrace hp).readStore
  | waitRead =>
    obtain ⟨-, hp⟩ := hguard
    have hlt := hinv.count_lt_of_waitRead hsel
    obtain ⟨-, rfl⟩ := (exec_waitRead_next s u).mp hexec
    have hframe : FrameTrace s.frameLen (s.frameLen - s.count) l r := h.frameTrace hp
    rw [frameLen_sub_count hlt] at hframe
    rw [s.finishesBy_of_reading hp, frameLen_sub_count hlt]
    exact hframe.waitRead
  | readDone =>
    obtain ⟨-, hp, hcount⟩ := hguard
    obtain ⟨-, rfl⟩ := (exec_readDone_next s u).mp hexec
    obtain ⟨htrace, rfl⟩ := h.handOverTrace (by cases s.emptyFrame <;> simp)
    rw [s.finishesBy_of_reading hp, hcount, Nat.sub_self]
    exact .readDone htrace
  | waitShow =>
    obtain ⟨-, hp⟩ := hguard
    obtain ⟨-, -, hN, -⟩ := hinv.display hp
    obtain ⟨-, rfl⟩ := (exec_waitShow_next s u).mp hexec
    obtain ⟨htrace, rfl⟩ := h.handOverTrace (.inl hp)
    exact (s.finishesBy_of_handOver (.inl hp)).mpr ⟨htrace.waitShow hN, rfl⟩
  | halt =>
    obtain ⟨-, hp⟩ := hguard
    obtain ⟨-, rfl⟩ := (exec_halt_next s u).mp hexec
    exact absurd h (State.not_finishesBy_of_failed hp)
  | reset => exact absurd rfl hreset
  | pipeShow | pipeSkip | scanFail | readFail => simp [endsIteration] at hi

end

/-! ## Environments without a reset -/

theorem settle_sublist (items : List Item) : (Item.settle items).Sublist items := by
  fun_induction Item.settle items with
  | case1 rest ih => exact ih.cons _
  | case2 l => exact .refl _

theorem reset_notMem_settle {items : List Item} (h : Item.reset ∉ items) : Item.reset ∉ Item.settle items :=
  fun hmem => h ((settle_sublist items).subset hmem)

/-- A step adds no `R` item to a stimulus program: what it leaves are later items or the rest of an idle
one. -/
theorem reset_notMem_itemsAfter (k : Taken) (items : List Item) (h : Item.reset ∉ items) :
    Item.reset ∉ itemsAfter k items := by
  have hsettle := reset_notMem_settle h
  unfold itemsAfter
  cases hs : Item.settle items with
  | nil => simp
  | cons x rest =>
    obtain ⟨hx, hrest⟩ : Item.reset ≠ x ∧ Item.reset ∉ rest := by simpa [hs] using hsettle
    cases x with
    | answer a => cases hk : k.answered <;> simp [hrest]
    | ack => by_cases hk : k = .ack <;> simp [hk, hrest]
    | idle m => simp [hrest]
    | reset => exact absurd rfl hx

theorem Env.quiet_inputs (l : List In) :
    (Env.inputs l).quiet = true ↔ ∀ x ∈ l, x.rst = false ∧ x.cfg = none := by
  simp [Env.quiet]

theorem Env.quiet_program (items : List Item) (prompt : Bool) :
    (Env.program items prompt).quiet = true ↔ Item.reset ∉ items := by
  simp [Env.quiet, ← List.forall_mem_ne']

theorem Env.quiet_after (e : Env) (k : Taken) (h : e.quiet = true) : (e.after k).quiet = true := by
  cases e with
  | inputs l =>
    rw [Env.quiet_inputs] at h
    exact (Env.quiet_inputs _).mpr fun x hx => h x (List.mem_of_mem_tail hx)
  | program items prompt =>
    rw [Env.quiet_program] at h
    exact (Env.quiet_program _ _).mpr (reset_notMem_itemsAfter k items h)

theorem State.input_rst_of_quiet (s : State) (h : s.env.quiet = true) : s.input.rst = false := by
  cases henv : s.env with
  | inputs l =>
    cases l with
    | nil => rw [State.input_idle s henv]
    | cons x l =>
      rw [henv, Env.quiet_inputs] at h
      rw [State.input_cons s x l henv]
      exact (h x (.head _)).1
  | program items prompt =>
    rw [henv, Env.quiet_program] at h
    rw [State.input_program s items prompt henv]
    have hsettle := reset_notMem_settle h
    unfold Item.offer
    split
    case h_5 rest hs => simp [hs] at hsettle
    all_goals rfl

/-- The state meets the table of R41, and no reset or change of the configuration is to come. -/
structure State.Undisturbed (s : State) : Prop where
  inv : s.Inv
  quiet : s.env.quiet = true

theorem State.Clean.undisturbed {s : State} (h : s.Clean) (hquiet : s.env.quiet = true) : s.Undisturbed :=
  ⟨.of_clean h, hquiet⟩

section
variable {s u t : State} {i : Instr} {l : List Instr} {r : Bool} {n : Nat}

theorem State.Undisturbed.ne_reset (h : s.Undisturbed) (hexec : exec i s = .next u) : i ≠ .reset := by
  rintro rfl
  have hrst : s.input.rst = true := guard_of_selected s _ (selected_of_exec_next _ s u hexec)
  simp [s.input_rst_of_quiet h.quiet] at hrst

theorem State.Undisturbed.exec_next (h : s.Undisturbed) (hexec : exec i s = .next u) : u.Undisturbed where
  inv := exec_keeps_inv i s u h.inv hexec
  quiet := by
    rw [(movesSurroundings_of_exec_next i s u hexec).env]
    exact s.env.quiet_after _ h.quiet

theorem State.Undisturbed.frameLen_eq (h : s.Undisturbed) (hexec : exec i s = .next u) :
    u.frameLen = s.frameLen :=
  congrArg Config.frameLen ((movesSurroundings_of_exec_next i s u hexec).cfg (h.ne_reset hexec))

/-- A run of operations is one operation and the run from its next state. -/
theorem runOps_succ : runOps (n + 1) s = some (l, t) ↔
    ∃ i l' u, exec i s = .next u ∧ runOps n u = some (l', t) ∧ l = i :: l' := by
  constructor
  · intro h
    unfold runOps at h
    split at h
    · next i u hsel hstep =>
      obtain ⟨⟨l', t'⟩, hrun, heq⟩ := Option.map_eq_some_iff.mp h
      obtain ⟨rfl, rfl⟩ : i :: l' = l ∧ t' = t := by simpa using heq
      obtain ⟨j, hj, hexec⟩ := (step_next s u).mp hstep
      obtain rfl : i = j := by simpa [hsel] using hj
      exact ⟨i, l', u, hexec, hrun, rfl⟩
    · cases h
  · rintro ⟨i, l', u, hexec, hrun, rfl⟩
    have hsel := selected_of_exec_next i s u hexec
    have hstep : step s = .next u := (step_next s u).mpr ⟨i, hsel, hexec⟩
    simp [runOps, hsel, hstep, hrun]

/-- A run whose first operation to end an iteration is its last brings the iteration to its end. -/
theorem State.Undisturbed.finishesBy_of_runOps {last : Instr} (h : s.Undisturbed)
    (hrun : runOps n s = some (l ++ [last], t)) (hlast : endsIteration last = true)
    (hl : ∀ i ∈ l, endsIteration i = false) :
    s.FinishesBy (l ++ [last]) (decide (last = .pipeShow ∨ last = .pipeSkip)) := by
  induction l generalizing n s with
  | nil =>
    cases n with
    | zero => simp [runOps] at hrun
    | succ n =>
      obtain ⟨i, l', u, hexec, -, heq⟩ := runOps_succ.mp hrun
      obtain ⟨rfl, -⟩ : last = i ∧ [] = l' := by simpa using heq
      exact State.finishesBy_singleton h.inv hexec hlast
  | cons i l ih =>
    cases n with
    | zero => simp [runOps] at hrun
    | succ n =>
      obtain ⟨j, l', u, hexec, hrun', heq⟩ := runOps_succ.mp hrun
      obtain ⟨rfl, rfl⟩ : i = j ∧ l ++ [last] = l' := by simpa using heq
      have hrest := ih (h.exec_next hexec) hrun' fun j hj => hl j (.tail _ hj)
      exact hrest.cons h.inv hexec (h.ne_reset hexec) (hl i (.head _))

end

/-- Settles O59: each operation leaves what is left of the iteration, and a clean state has all of it left. -/
theorem iterationFollowsMacro : Obligations.IterationFollowsMacro := by
  intro s t n l last hclean hquiet hrun hlast hl
  have hfinishes := (hclean.undisturbed hquiet).finishesBy_of_runOps hrun hlast hl
  exact hfinishes.iterationTrace hclean.1

/-! ## Whole runs (O60) -/

/-- The operations `l` would continue a run from the state, with `true` where they stop at the end of an
iteration. -/
inductive State.ContinuesBy (s : State) : List Instr → Bool → Prop where
  | halted (hp : s.phase = .failed) (halts : Nat) : ContinuesBy s (List.replicate halts .halt) false
  | iterate (a l : List Instr) (r : Bool) (ha : s.FinishesBy a true) (hl : LoopTrace s.frameLen l r) :
      ContinuesBy s (a ++ l) r
  | failing (a : List Instr) (halts : Nat) (ha : s.FinishesBy a false) :
      ContinuesBy s (a ++ List.replicate halts .halt) false

section
variable {s u t : State} {i : Instr} {l l' : List Instr} {r : Bool} {n : Nat}

theorem State.ContinuesBy.loopTrace (hp : s.phase = .syncing) (h : s.ContinuesBy l r) :
    LoopTrace s.frameLen l r := by
  cases h with
  | halted hfailed => simp [hp] at hfailed
  | iterate a l _ ha hl => exact .iterate a l r (ha.iterationTrace hp) hl
  | failing a halts ha => exact .failed a halts (ha.iterationTrace hp)

theorem State.ContinuesBy.eq_halts (hp : s.phase = .failed) (h : s.ContinuesBy l r) :
    ∃ halts, l = List.replicate halts .halt ∧ r = false := by
  cases h with
  | halted _ halts => exact ⟨halts, rfl, rfl⟩
  | iterate _ _ _ ha => exact absurd ha (s.not_finishesBy_of_failed hp)
  | failing _ _ ha => exact absurd ha (s.not_finishesBy_of_failed hp)

/-- Besides the two failures only `HALT` leads to `FAILED`, and from there: the table of R27. -/
theorem enters_failed (hexec : exec i s = .next u) (hu : u.phase = .failed) (hi : endsIteration i = false) :
    i = .halt ∧ s.phase = .failed := by
  have htable := phaseTransitionTable i s u hexec
  cases i with
  | halt => exact ⟨rfl, htable.1⟩
  | reset => simp [hu] at htable
  | scanMatch | scanMiss | waitScan | scanDone | readStore | waitRead | waitShow => simp [hu] at htable
  | readDone =>
    obtain ⟨-, hdisplay, hskip⟩ := htable
    obtain hN | hN := (s.frameLen).eq_zero_or_pos
    · simp [hu, hN] at hskip
    · simp [hu, hN] at hdisplay
  | pipeShow | pipeSkip | scanFail | readFail => simp [endsIteration] at hi

/-- An operation stands before what goes on from the next state: it ends an iteration well and the loop
begins again, it fails and `HALT`s follow, or it leaves the iteration open. -/
theorem State.Undisturbed.continuesBy_cons (h : s.Undisturbed) (hexec : exec i s = .next u)
    (hu : u.ContinuesBy l r) : s.ContinuesBy (i :: l) r := by
  have hN := h.frameLen_eq hexec
  cases hi : endsIteration i with
  | true =>
    have hend := State.finishesBy_singleton h.inv hexec hi
    have htable := phaseTransitionTable i s u hexec
    cases i with
    | pipeShow | pipeSkip =>
      have hloop := hu.loopTrace htable.2
      rw [hN] at hloop
      exact .iterate [_] l r hend hloop
    | scanFail | readFail =>
      obtain ⟨halts, rfl, rfl⟩ := hu.eq_halts htable.2
      exact .failing [_] halts hend
    | _ => simp [endsIteration] at hi
  | false =>
    have hreset := h.ne_reset hexec
    cases hu with
    | halted hp halts =>
      obtain ⟨rfl, hs⟩ := enters_failed hexec hp hi
      exact .halted hs (halts + 1)
    | iterate a l _ ha hl => exact .iterate (i :: a) l r (ha.cons h.inv hexec hreset hi) (hN ▸ hl)
    | failing a halts ha => exact .failing (i :: a) halts (ha.cons h.inv hexec hreset hi)

theorem State.Undisturbed.continuesBy_of_runOps (h : s.Undisturbed) (hrun : runOps n s = some (l, t))
    (ht : t.ContinuesBy l' r) : s.ContinuesBy (l ++ l') r := by
  induction n generalizing s l with
  | zero =>
    obtain ⟨rfl, rfl⟩ : [] = l ∧ s = t := by simpa [runOps] using hrun
    exact ht
  | succ n ih =>
    obtain ⟨i, rest, u, hexec, hrun', rfl⟩ := runOps_succ.mp hrun
    exact h.continuesBy_cons hexec (ih (h.exec_next hexec) hrun')

theorem State.exists_finishesBy (hp : s.phase ≠ .failed) : ∃ l r, s.FinishesBy l r := by
  cases hphase : s.phase with
  | failed => exact absurd hphase hp
  | syncing => exact ⟨_, _, (s.finishesBy_of_syncing hphase).mpr (.noSync _ .fail)⟩
  | reading =>
    obtain ⟨l, r, h⟩ := exists_frameTrace s.frameLen (s.frameLen - s.count)
    exact ⟨l, r, (s.finishesBy_of_reading hphase).mpr h⟩
  | display | skip =>
    obtain ⟨l, h⟩ := exists_handOverTrace s.frameLen
    exact ⟨l, true, (s.finishesBy_of_handOver (by simp [hphase])).mpr ⟨h, rfl⟩⟩

/-- Every state has a way to go on, so every run is a beginning of a longer one. -/
theorem State.exists_continuesBy (s : State) : ∃ l r, s.ContinuesBy l r := by
  by_cases hp : s.phase = .failed
  · exact ⟨_, _, .halted hp 0⟩
  · obtain ⟨l, r, h⟩ := s.exists_finishesBy hp
    cases r with
    | true => exact ⟨_, _, .iterate l [] true h .start⟩
    | false => exact ⟨_, _, .failing l 0 h⟩

/-- After a `RESET` the state is clean and runs under the configuration the buses showed (log entry 3). -/
theorem clean_of_exec_reset (hexec : exec .reset s = .next u) :
    u.Clean ∧ u.frameLen = s.shownCfg.frameLen := by
  obtain ⟨-, rfl⟩ := (exec_reset_next s u).mp hexec
  exact ⟨⟨rfl, rfl, rfl, rfl, rfl, rfl⟩, rfl⟩

/-- A `RESET` and the operations after it, up to any point from which `l'` would go on, are those of `RUN`. -/
theorem runTrace_of_runOps (hexec : exec .reset s = .next u) (hquiet : (s.env.after .nothing).quiet = true)
    (hrun : runOps n u = some (l, t)) (ht : t.ContinuesBy l' r) :
    RunTrace s.shownCfg.frameLen (.reset :: l ++ l') r := by
  obtain ⟨hclean, hN⟩ := clean_of_exec_reset hexec
  have henv : u.env = s.env.after .nothing := (movesSurroundings_of_exec_next _ s u hexec).env
  have hcontinues := (hclean.undisturbed (henv ▸ hquiet)).continuesBy_of_runOps hrun ht
  exact .intro _ r (hN ▸ hcontinues.loopTrace hclean.1)

end

/-- Settles O60: whatever state the run has come to, there is a way to go on, and in `FAILED` one of them is
to stop. -/
theorem runFollowsMacro : Obligations.RunFollowsMacro := by
  intro s t n l hrst hquiet hrun
  cases n with
  | zero =>
    obtain ⟨rfl, -⟩ : [] = l ∧ s = t := by simpa [runOps] using hrun
    exact ⟨⟨[.reset], true, .intro [] true .start⟩, by simp⟩
  | succ n =>
    obtain ⟨i, l, u, hexec, hrun', rfl⟩ := runOps_succ.mp hrun
    obtain rfl := (guard_of_selected s i (selected_of_exec_next i s u hexec)).eq_reset hrst
    refine ⟨?_, fun _ hp => ?_⟩
    · obtain ⟨rest, r, hrest⟩ := t.exists_continuesBy
      exact ⟨rest, r, runTrace_of_runOps hexec hquiet hrun' hrest⟩
    · simpa using runTrace_of_runOps hexec hquiet hrun' (.halted hp 0)

end Sys2Proof.Machine

/-! ## The operations of the scanner, one by one (O1, O2, O3, O4, O5) -/

namespace Sys2Proof.Machine

/-- A step in the legal domain whose fields are those of an operation's canonical value has that value as its
`OPSEL`, and selects the operation (R101, R102). -/
theorem selected_of_selector_eq {i : Instr} {s : State} (hrun : s.Running) (h : s.selector = i.selector) :
    s.opsel = i.selector.bits ∧ s.selected = .ok i := by
  have hopsel : s.opsel = i.selector.bits := congrArg Selector.bits h
  exact ⟨hopsel, selected_of_running s i hrun (hopsel ▸ decodeSel_selector_bits i)⟩

section
variable {s : State}

/-- With a read of the scanner outstanding, the answer on offer is the event, and only a byte is compared with
the marker (R99, R100). -/
theorem selector_of_scanning (hrst : s.input.rst = false) (hp : s.phase = .syncing)
    (hlt : s.progress < s.markerLen) : s.selector =
      match s.input.src with
      | some (.byte b) => ⟨false, .syncing, .byte, decide (s.expected = some b), false⟩
      | some (.err _) => ⟨false, .syncing, .err, false, false⟩
      | none => ⟨false, .syncing, .none, false, false⟩ := by
  have hev := ev_of_requesting s ((requesting_iff s).mpr (.inl ⟨hp, hlt⟩))
  have htc := tc_eq_false_of_syncing hp hlt.ne
  rcases hsrc : s.input.src with _ | (b | c) <;>
    simp [State.selector, State.eq, State.offeredByte, hrst, hp, hlt, hev, htc, hsrc, eq_comm (a := some _)]

/-- With the marker complete no read is outstanding, so whatever is on offer is no event (R99, R100). -/
theorem selector_of_marker_complete (hrst : s.input.rst = false) (hp : s.phase = .syncing)
    (hend : s.progress = s.markerLen) : s.selector = Instr.scanDone.selector := by
  have hreq : s.requesting = false := by simp [State.requesting, hp, hend]
  have hev : s.ev = .none := by simp [ev_of_not_requesting s hreq, hp]
  have htc : s.tc = true := (tc_iff s).mpr (.inl ⟨hp, hend⟩)
  simp [State.selector, Instr.selector, State.eq, hrst, hp, hev, htc]

end

/-- Settles O1: `PROGRESS` was below `L`, so it stays at most `L`, and reaching `L` ends the read request. -/
theorem scanMatchAdvancesProgress : Obligations.ScanMatchAdvancesProgress := by
  intro s b hrun hp hlt hsrc hexpected
  obtain ⟨hopsel, hsel⟩ := selected_of_selector_eq (i := .scanMatch) hrun
    (by simp [selector_of_scanning hrun.1 hp hlt, hsrc, hexpected, Instr.selector])
  refine ⟨hopsel, _, (exec_scanMatch_next s _).mpr ⟨hsel, ⟨b, (offeredByte_eq_some s b).mpr hsrc⟩, rfl⟩,
    rfl, hlt, fun hlast => ?_⟩
  simp [State.requesting, State.tc, hp, hlast]

/-- A capacity of at least 1 leaves an empty accumulator room for a byte (R7, R24). -/
theorem appendSkipped_ne_nil {p : Build} (hp : p.wf = true) (l : List Byte) (b : Byte) :
    appendSkipped p.skipCap l b ≠ [] := by
  have hroom : atMost 1 p.skipCap = true := by
    simp only [Build.wf, Bool.and_eq_true] at hp
    obtain ⟨⟨-, hcap⟩, -⟩ := hp
    cases hskip : p.skipCap with
    | none => rfl
    | some n => rwa [hskip] at hcap
  rw [appendSkipped_eq]
  cases l with
  | nil => simp [hroom]
  | cons a l => split <;> simp

/-- Settles O2: the accumulator is not empty after a miss, whether or not it had room for the byte. -/
theorem scanMissRestartsAtZero : Obligations.ScanMissRestartsAtZero := by
  intro s b hrun hp hlt hsrc hexpected
  have ⟨_, _, hlegal, _⟩ := hrun
  obtain ⟨hbuild, -⟩ := (cfgLegal_iff s).mp hlegal
  obtain ⟨hopsel, hsel⟩ := selected_of_selector_eq (i := .scanMiss) hrun
    (by simp [selector_of_scanning hrun.1 hp hlt, hsrc, hexpected, Instr.selector])
  refine ⟨hopsel, _, (exec_scanMiss_next s _).mpr ⟨hsel, b, (offeredByte_eq_some s b).mpr hsrc, rfl⟩, ?_, ?_⟩
  · rw [appendSkipped_eq]
    rfl
  · simpa [State.skipNonempty, List.length_pos_iff] using appendSkipped_ne_nil hbuild s.skipped b

/-- Settles O3: the log is the one event, and a fresh count of 0 is already `N` for an empty frame. -/
theorem scanDoneEntersReading : Obligations.ScanDoneEntersReading := by
  intro s hrun hp hend
  obtain ⟨hopsel, hsel⟩ := selected_of_selector_eq hrun (selector_of_marker_complete hrun.1 hp hend)
  refine ⟨hopsel, _, (exec_scanDone_next s _).mpr ⟨hsel, rfl⟩, ?_, rfl, fun hN => ?_⟩
  · rw [s.emitLog_eq]
    rfl
  · simp [State.tc, hN]

/-- Settles O4: the exception is taken with the sub-code on offer, and in `FAILED` the outputs are fixed. -/
theorem scanFailRecordsSyncIo : Obligations.ScanFailRecordsSyncIo := by
  intro s c hrun hp hlt hsrc
  obtain ⟨hopsel, hsel⟩ := selected_of_selector_eq (i := .scanFail) hrun
    (by simp [selector_of_scanning hrun.1 hp hlt, hsrc, Instr.selector])
  exact ⟨hopsel, _, (exec_scanFail_next s _).mpr ⟨hsel, c, (offeredCode_eq_some s c).mpr hsrc, rfl⟩,
    rfl, rfl, rfl, rfl⟩

/-- Settles O5: the operation only ends the step. -/
theorem waitScanChangesNothing : Obligations.WaitScanChangesNothing := by
  intro s hrun hp hlt hsrc
  obtain ⟨hopsel, hsel⟩ := selected_of_selector_eq (i := .waitScan) hrun
    (by simp [selector_of_scanning hrun.1 hp hlt, hsrc, Instr.selector])
  exact ⟨hopsel, _, (exec_waitScan_next s _).mpr ⟨hsel, rfl⟩, rfl⟩

/-! ## The scanner as an automaton (O50) -/

/-- Settles O50: a match is a `SCAN.MATCH` and a mismatch a `SCAN.MISS`, and the two branches of `delta` are
what they write. -/
theorem scannerFollowsDelta : Obligations.ScannerFollowsDelta := by
  intro s b hrun hp hlt hsrc
  have hbyte := (offeredByte_eq_some s b).mpr hsrc
  by_cases hexpected : s.expected = some b
  · have hdecode := decodeSel_opsel_eq_scanMatch s b hrun.1 hp hlt hsrc hexpected
    obtain ⟨-, hstep⟩ := exec_step_next_of_decodeSel hrun hdecode fun hsel =>
      (exec_scanMatch_next s _).mpr ⟨hsel, ⟨b, hbyte⟩, rfl⟩
    exact ⟨_, hstep, hp, (if_pos hexpected).symm, (if_pos hexpected).symm⟩
  · have hdecode := decodeSel_opsel_eq_scanMiss b hrun.1 hp hlt hsrc hexpected
    obtain ⟨-, hstep⟩ := exec_step_next_of_decodeSel hrun hdecode fun hsel =>
      (exec_scanMiss_next s _).mpr ⟨hsel, b, hbyte, rfl⟩
    exact ⟨_, hstep, hp, (if_neg hexpected).symm, (if_neg hexpected).symm⟩

/-! ## Waiting (O38) -/

section
variable {s : State}

/-- A step that waits for an answer or for the sink, or that has failed, only ends (R125, R144, R162, R164). -/
theorem step_of_waiting (hrun : s.Running)
    (h : (s.requesting = true ∧ s.input.src = none) ∨ (s.phase = .display ∧ s.input.ack = false) ∨
      s.phase = .failed) : step s = .next (s.endStep .nothing) := by
  obtain ⟨hreq, hsrc⟩ | ⟨hp, hack⟩ | hp := h
  · obtain ⟨hp, hlt⟩ | ⟨hp, hlt⟩ := (requesting_iff s).mp hreq
    · exact (exec_step_next_of_decodeSel hrun (decodeSel_opsel_eq_waitScan s hrun.1 hp hlt hsrc) fun hsel =>
        (exec_waitScan_next s _).mpr ⟨hsel, rfl⟩).2
    · exact (exec_step_next_of_decodeSel hrun (decodeSel_opsel_eq_waitRead hrun.1 hp hlt hsrc) fun hsel =>
        (exec_waitRead_next s _).mpr ⟨hsel, rfl⟩).2
  · exact (exec_step_next_of_decodeSel hrun (decodeSel_opsel_eq_waitShow hrun.1 hp hack) fun hsel =>
      (exec_waitShow_next s _).mpr ⟨hsel, rfl⟩).2
  · exact (exec_step_next_of_decodeSel hrun (decodeSel_opsel_eq_halt hrun.1 hp) fun hsel =>
      (exec_halt_next s _).mpr ⟨hsel, rfl⟩).2

/-- A state with no input left that waits: in a read, in the display call or in `FAILED` (R226). -/
structure State.Waits (s : State) : Prop where
  env : s.env = .inputs []
  legal : s.cfgLegal = true
  waiting : s.requesting = true ∨ s.phase = .display ∨ s.phase = .failed

theorem State.Waits.step_wait (h : s.Waits) : step s = .next (s.endStep .nothing) := by
  have hinput := s.input_idle h.env
  have hrun : s.Running :=
    ⟨by simp [hinput], by simp [State.cfgStable, hinput], h.legal, by simp [State.srcLegal, hinput]⟩
  exact step_of_waiting hrun (by simpa [hinput] using h.waiting)

/-- The end of a step that took nothing moves nothing that waiting depends on. -/
theorem State.Waits.endStep (h : s.Waits) : (s.endStep .nothing).Waits :=
  ⟨by simp [h.env], h.legal, h.waiting⟩

end

/-- Settles O38, by induction on the number of steps. -/
theorem waitingPreservesState : Obligations.WaitingPreservesState := by
  intro n s henv hlegal hwaiting
  have h : s.Waits := ⟨henv, hlegal, hwaiting⟩
  clear henv hlegal hwaiting
  induction n generalizing s with
  | zero => exact ⟨s, rfl, ⟨rfl, rfl, rfl, rfl, rfl, rfl⟩, ⟨rfl, rfl⟩, rfl, rfl⟩
  | succ n ih =>
    obtain ⟨t, hrun, hsame⟩ := ih _ h.endStep
    exact ⟨t, (runSteps_succ n s t).mpr ⟨_, h.step_wait, hrun⟩, hsame⟩

end Sys2Proof.Machine

/-! ## The reference scanner: what it consumes (O51) -/

namespace Sys2Proof.Machine

@[simp] theorem byteAnswers_nil : byteAnswers [] = [] := rfl

@[simp] theorem byteAnswers_cons (b : Byte) (bytes : List Byte) :
    byteAnswers (b :: bytes) = .byte b :: byteAnswers bytes := rfl

@[simp] theorem length_byteAnswers (bytes : List Byte) : (byteAnswers bytes).length = bytes.length :=
  List.length_map _

section
variable (marker : List Byte) (cap : Option Nat)

/-- With the marker complete the scan ends, whatever is still to come (R131). -/
theorem syncFrom_of_complete (answers : List Answer) {p : Nat} (hp : p = marker.length) (sk : List Byte)
    (used : Nat) : syncFrom marker cap answers p sk used = .ok used sk := by
  cases answers <;> simp [syncFrom, hp]

section
variable {p : Nat} (hp : p < marker.length) (sk : List Byte) (used : Nat)
include hp

theorem syncFrom_nil : syncFrom marker cap [] p sk used = .blocked p sk := by
  simp [syncFrom, hp.ne]

theorem syncFrom_err (c : Nat) (rest : List Answer) :
    syncFrom marker cap (.err c :: rest) p sk used = .err .syncIo c used := by
  simp [syncFrom, hp.ne]

theorem syncFrom_hit {b : Byte} (hb : marker[p]? = some b) (rest : List Answer) :
    syncFrom marker cap (.byte b :: rest) p sk used = syncFrom marker cap rest (p + 1) sk (used + 1) := by
  simp [syncFrom, hp.ne, hb]

theorem syncFrom_miss {b : Byte} (hb : marker[p]? ≠ some b) (rest : List Answer) :
    syncFrom marker cap (.byte b :: rest) p sk used =
      syncFrom marker cap rest 0 (appendSkipped cap sk b) (used + 1) := by
  simp [syncFrom, hp.ne, hb]

end

/-- Where the answers consumed so far, `before`, end with the first `p` marker bytes, those consumed by a
successful scan end with the whole marker. -/
theorem marker_suffix_of_syncFrom_ok {answers before : List Answer} {p used : Nat} {sk skipped : List Byte}
    (hp : p ≤ marker.length) (hbefore : byteAnswers (marker.take p) <:+ before)
    (h : syncFrom marker cap answers p sk before.length = .ok used skipped) :
    byteAnswers marker <:+ (before ++ answers).take used ∧ used ≤ (before ++ answers).length := by
  induction answers generalizing p sk before with
  | nil =>
    obtain hlt | rfl := hp.lt_or_eq
    · simp [syncFrom_nil marker cap hlt] at h
    · obtain ⟨rfl, -⟩ : before.length = used ∧ sk = skipped := by
        simpa [syncFrom_of_complete marker cap [] rfl] using h
      simpa using hbefore
  | cons a rest ih =>
    obtain hlt | rfl := hp.lt_or_eq
    · have hlen : before.length + 1 = (before ++ [a]).length := by simp
      rw [List.append_cons]
      cases a with
      | err c => simp [syncFrom_err marker cap hlt] at h
      | byte b =>
        by_cases hb : marker[p]? = some b
        · rw [syncFrom_hit marker cap hlt _ _ hb, hlen] at h
          refine ih hlt ?_ h
          obtain ⟨l, rfl⟩ := hbefore
          exact ⟨l, by simp [byteAnswers, List.take_add_one, hb]⟩
        · rw [syncFrom_miss marker cap hlt _ _ hb, hlen] at h
          exact ih (Nat.zero_le _) (List.nil_suffix) h
    · obtain ⟨rfl, -⟩ : before.length = used ∧ sk = skipped := by
        simpa [syncFrom_of_complete marker cap (a :: rest) rfl] using h
      simpa using hbefore

theorem marker_suffix_of_sync_ok {answers : List Answer} {used : Nat} {skipped : List Byte}
    (h : sync marker cap answers = .ok used skipped) :
    byteAnswers marker <:+ answers.take used ∧ used ≤ answers.length :=
  marker_suffix_of_syncFrom_ok marker cap (before := []) (Nat.zero_le _) (List.nil_suffix) h

end

/-- Settles O51: the marker is a suffix of the answers that a successful scan consumes. -/
theorem syncSuccessEndsWithMarker : Obligations.SyncSuccessEndsWithMarker := by
  intro marker cap answers used skipped h
  obtain ⟨hsuffix, hused⟩ := marker_suffix_of_sync_ok marker cap h
  have hlen := hsuffix.length_le
  have hdrop := List.suffix_iff_eq_drop.mp hsuffix
  rw [List.length_take_of_le hused, length_byteAnswers] at hlen hdrop
  exact ⟨hlen, hdrop.symm⟩

/-! ## The attempts of the reference scanner (O52, O53, O54) -/

@[simp] theorem greedy_nil_right (marker : List Byte) : greedy marker [] = 0 := by
  cases marker <;> rfl

@[simp] theorem greedy_nil_left (s : List Byte) : greedy [] s = 0 := rfl

theorem greedy_cons (m b : Byte) (marker s : List Byte) :
    greedy (m :: marker) (b :: s) = if m = b then greedy marker s + 1 else 0 := rfl

theorem greedy_le_length (marker s : List Byte) : greedy marker s ≤ marker.length := by
  fun_induction greedy marker s <;> simp_all

/-- The byte at which an attempt stops short of the marker's end is not the one the marker has there. -/
theorem getElem?_greedy_ne (marker s : List Byte) (hlt : greedy marker s < marker.length) {b : Byte}
    (hb : s[greedy marker s]? = some b) : marker[greedy marker s]? ≠ some b := by
  induction marker generalizing s with
  | nil => simp at hlt
  | cons m ms ih =>
    cases s with
    | nil => simp at hb
    | cons c s =>
      by_cases hmc : m = c
      · have hgreedy : greedy (m :: ms) (c :: s) = greedy ms s + 1 := by simp [greedy_cons, hmc]
        rw [hgreedy] at hlt hb ⊢
        exact ih s (Nat.lt_of_succ_lt_succ hlt) hb
      · have hgreedy : greedy (m :: ms) (c :: s) = 0 := by simp [greedy_cons, hmc]
        rw [hgreedy] at hb ⊢
        obtain rfl : c = b := by simpa using hb
        simpa using hmc

theorem greedy_append_self (marker rest : List Byte) : greedy marker (marker ++ rest) = marker.length := by
  induction marker with
  | nil => rfl
  | cons m ms ih => simp [greedy_cons, ih]

/-- An attempt goes on as far as the marker and the stream agree, and logs nothing on its way. -/
theorem syncFrom_byteAnswers_eq_drop_greedy (marker : List Byte) (cap : Option Nat) (s : List Byte) (p : Nat)
    (sk : List Byte) (used : Nat) :
    syncFrom marker cap (byteAnswers s) p sk used =
      syncFrom marker cap (byteAnswers (s.drop (greedy (marker.drop p) s))) (p + greedy (marker.drop p) s) sk
        (used + greedy (marker.drop p) s) := by
  induction s generalizing p used with
  | nil => simp
  | cons b s ih =>
    obtain hge | hlt := le_or_gt marker.length p
    · simp [List.drop_eq_nil_of_le hge]
    · rw [List.drop_eq_getElem_cons hlt, greedy_cons]
      split
      · next hb =>
        have hhit := syncFrom_hit marker cap hlt sk used (b := b) (by simp [hlt, hb]) (byteAnswers s)
        simpa [add_right_comm, ← add_assoc] using hhit.trans (ih (p + 1) (used + 1))
      · simp

section
variable {marker s : List Byte} (cap : Option Nat) (sk : List Byte) (used : Nat)

/-- An attempt that reaches the end of the marker succeeds. -/
theorem syncFrom_of_greedy_eq (h : greedy marker s = marker.length) :
    syncFrom marker cap (byteAnswers s) 0 sk used = .ok (used + marker.length) sk := by
  rw [syncFrom_byteAnswers_eq_drop_greedy, List.drop_zero, h]
  exact syncFrom_of_complete marker cap _ (Nat.zero_add _) sk _

/-- An attempt that the stream cuts short is blocked. -/
theorem syncFrom_of_greedy_eq_length (hlt : greedy marker s < marker.length) (h : s.length ≤ greedy marker s) :
    syncFrom marker cap (byteAnswers s) 0 sk used = .blocked (greedy marker s) sk := by
  rw [syncFrom_byteAnswers_eq_drop_greedy, List.drop_zero, List.drop_eq_nil_of_le h, Nat.zero_add]
  exact syncFrom_nil marker cap hlt sk _

/-- An attempt that meets another byte logs this one byte and starts over behind it. -/
theorem syncFrom_of_greedy_lt (hlt : greedy marker s < marker.length) {b : Byte}
    (hb : s[greedy marker s]? = some b) :
    syncFrom marker cap (byteAnswers s) 0 sk used =
      syncFrom marker cap (byteAnswers (s.drop (greedy marker s + 1))) 0 (appendSkipped cap sk b)
        (used + greedy marker s + 1) := by
  obtain ⟨hinside, rfl⟩ := List.getElem?_eq_some_iff.mp hb
  rw [syncFrom_byteAnswers_eq_drop_greedy, List.drop_zero, List.drop_eq_getElem_cons hinside, Nat.zero_add]
  exact syncFrom_miss marker cap hlt sk _ (getElem?_greedy_ne marker s hlt hb) _

end

/-! ## The restart points and their log (R129, R130) -/

/-- `log` holds the byte at which each of the abandoned matches `ms` of a scan of `s` failed, in order. -/
structure LogsMismatches (s : List Byte) (ms : List Nat) (log : List Byte) : Prop where
  length_eq : log.length = ms.length
  byte_eq : ∀ j, j < ms.length → log[j]? = s[(ms.take (j + 1)).sum + j]?

theorem LogsMismatches.concat {s : List Byte} {ms : List Nat} {log : List Byte} {g : Nat} {b : Byte}
    (h : LogsMismatches s ms log) (hb : s[ms.sum + ms.length + g]? = some b) :
    LogsMismatches s (ms ++ [g]) (log ++ [b]) where
  length_eq := by simp [h.length_eq]
  byte_eq j hj := by
    obtain hlt | rfl : j < ms.length ∨ j = ms.length := by simp at hj; omega
    · rw [List.getElem?_append_left (by rwa [h.length_eq]), h.byte_eq j hlt,
        List.take_append_of_le_length hlt]
    · rw [← h.length_eq, List.getElem?_concat_length, h.length_eq, ← hb]
      simp [add_right_comm]

section
variable {marker s : List Byte} {r : Nat} {ms : List Nat}

/-- Before a restart point lie the abandoned matches and one mismatched byte for each. -/
theorem RestartPoint.eq_sum_add_length (h : RestartPoint marker s r ms) : r = ms.sum + ms.length := by
  induction h with
  | start => rfl
  | next r ms _ _ _ ih => simp [ih]; omega

/-- The scan of a stream gets to each of its restart points, with progress 0 and the bytes mismatched before it
in the accumulator, as far as that has room. -/
theorem RestartPoint.sync_eq (h : RestartPoint marker s r ms) (cap : Option Nat) :
    ∃ log, LogsMismatches s ms log ∧ sync marker cap (byteAnswers s) =
      syncFrom marker cap (byteAnswers (s.drop r)) 0 (log.foldl (appendSkipped cap) []) r := by
  induction h with
  | start => exact ⟨[], ⟨rfl, by simp⟩, by simp [sync]⟩
  | next r ms h short inside ih =>
    obtain ⟨log, hlog, hsync⟩ := ih
    have hb := List.getElem?_eq_getElem inside
    refine ⟨log ++ [s[r + greedy marker (s.drop r)]], hlog.concat (by rwa [← h.eq_sum_add_length]), ?_⟩
    rw [hsync, syncFrom_of_greedy_lt cap _ r short ((List.getElem?_drop).trans hb), List.foldl_append,
      List.drop_drop, ← add_assoc]
    rfl

/-- A successful scan ends with a match at a restart point: each attempt that stops short leads to the next
one. -/
theorem RestartPoint.exists_match_of_sync_ok {r : Nat} {ms : List Nat} (h : RestartPoint marker s r ms)
    (cap : Option Nat) {used : Nat} {skipped : List Byte} (hok : sync marker cap (byteAnswers s) = .ok used skipped) :
    ∃ k ms', RestartPoint marker s k ms' ∧ greedy marker (s.drop k) = marker.length ∧
      used = k + marker.length := by
  obtain ⟨log, -, hsync⟩ := h.sync_eq cap
  rw [hok] at hsync
  obtain hlt | heq := (greedy_le_length marker (s.drop r)).lt_or_eq
  · by_cases inside : r + greedy marker (s.drop r) < s.length
    · exact (h.next r ms hlt inside).exists_match_of_sync_ok cap hok
    · have hcut : (s.drop r).length ≤ greedy marker (s.drop r) := by simp; omega
      simp [syncFrom_of_greedy_eq_length cap _ _ hlt hcut] at hsync
  · rw [syncFrom_of_greedy_eq cap _ _ heq] at hsync
    obtain ⟨rfl, -⟩ := SyncResult.ok.inj hsync
    exact ⟨r, ms, h, heq, rfl⟩
termination_by s.length - r

/-- A restart point where the marker occurs is where the scan succeeds, with the mismatched bytes logged. -/
theorem RestartPoint.sync_ok (h : RestartPoint marker s r ms) (cap : Option Nat)
    (hmatch : greedy marker (s.drop r) = marker.length) :
    ∃ log, LogsMismatches s ms log ∧ sync marker cap (byteAnswers s) =
      .ok (r + marker.length) (log.foldl (appendSkipped cap) []) := by
  obtain ⟨log, hlog, hsync⟩ := h.sync_eq cap
  exact ⟨log, hlog, hsync.trans (syncFrom_of_greedy_eq cap _ r hmatch)⟩

end

/-- Settles O52: the scan succeeds at the first restart point where the marker occurs, and gets to every restart
point. -/
theorem syncFindsMarkerAtRestartPoints : Obligations.SyncFindsMarkerAtRestartPoints := by
  intro marker s cap k _
  constructor
  · rintro ⟨skipped, hok⟩
    obtain ⟨r, ms, h, hmatch, hused⟩ := RestartPoint.start.exists_match_of_sync_ok cap hok
    obtain rfl := Nat.add_right_cancel hused
    exact ⟨⟨ms, h⟩, hmatch⟩
  · rintro ⟨⟨ms, h⟩, hmatch⟩
    obtain ⟨log, -, hok⟩ := h.sync_ok cap hmatch
    exact ⟨_, hok⟩

/-- An unbounded accumulator keeps every byte (R24). -/
theorem foldl_appendSkipped_none (log sk : List Byte) : log.foldl (appendSkipped none) sk = sk ++ log := by
  induction log generalizing sk with
  | nil => simp
  | cons b log ih => simp [ih, appendSkipped]

/-- Settles O53: the match is at a restart point, and the scan that got there has logged its mismatches. -/
theorem syncLogHoldsMismatchedBytes : Obligations.SyncLogHoldsMismatchedBytes := by
  intro marker s used skipped _ hok
  obtain ⟨r, ms, h, hmatch, rfl⟩ := RestartPoint.start.exists_match_of_sync_ok none hok
  obtain ⟨log, hlog, hok'⟩ := h.sync_ok none hmatch
  rw [hok, foldl_appendSkipped_none, List.nil_append] at hok'
  obtain ⟨-, rfl⟩ := SyncResult.ok.inj hok'
  refine ⟨ms, by rwa [Nat.add_sub_cancel], ?_, hlog.length_eq, hlog.byte_eq⟩
  rw [hlog.length_eq, h.eq_sum_add_length]
  omega

/-- Noise without the marker's first byte is consumed and logged byte by byte, each one an attempt of its
own. -/
theorem syncFrom_noise (m : Byte) (ms noise s sk : List Byte) (used : Nat) (h : m ∉ noise) :
    syncFrom (m :: ms) none (byteAnswers (noise ++ s)) 0 sk used =
      syncFrom (m :: ms) none (byteAnswers s) 0 (sk ++ noise) (used + noise.length) := by
  induction noise generalizing sk used with
  | nil => simp
  | cons b noise ih =>
    obtain ⟨hb, hnoise⟩ : m ≠ b ∧ m ∉ noise := by simpa using h
    have hmiss := syncFrom_miss (m :: ms) none (Nat.zero_lt_succ _) sk used (b := b) (by simpa using hb)
      (byteAnswers (noise ++ s))
    simpa [appendSkipped, add_assoc, add_comm 1] using hmiss.trans (ih _ (used + 1) hnoise)

/-- Settles O54: the attempt behind the noise finds the marker whole. -/
theorem syncFindsMarkerAfterPlainNoise : Obligations.SyncFindsMarkerAfterPlainNoise := by
  intro m ms noise rest h
  rw [sync, List.append_assoc, syncFrom_noise m ms noise _ [] 0 h,
    syncFrom_of_greedy_eq none _ _ (greedy_append_self _ rest), Nat.zero_add, List.nil_append]

end Sys2Proof.Machine

/-! ## The reference function one iteration at a time

The parts of `run` (R170) under names of their own, so that a step of FSYNC can be held against them. -/

namespace Sys2Proof.Machine

/-- The reader never looks at more than the answers that are still missing; with none missing it is done. -/
theorem readFrameFrom_of_complete {n : Nat} (answers : List Answer) {buf : List Byte} (h : buf.length = n)
    (used : Nat) : readFrameFrom n answers buf used = .ok used buf := by
  cases answers <;> simp [readFrameFrom, h]

section
variable {n : Nat} {buf : List Byte} (h : buf.length < n) (used : Nat)
include h

theorem readFrameFrom_nil : readFrameFrom n [] buf used = .blocked buf := by
  simp [readFrameFrom, h.ne]

theorem readFrameFrom_err (c : Nat) (rest : List Answer) :
    readFrameFrom n (.err c :: rest) buf used = .err .readIo c used := by
  simp [readFrameFrom, h.ne]

theorem readFrameFrom_byte (b : Byte) (rest : List Answer) :
    readFrameFrom n (.byte b :: rest) buf used = readFrameFrom n rest (buf ++ [b]) (used + 1) := by
  simp [readFrameFrom, h.ne]

end

/-- The events `es`, and then what `r` says. -/
def emitting (es : List Event) (r : List Event × Phase) : List Event × Phase := (es ++ r.1, r.2)

@[simp] theorem emitting_nil (r : List Event × Phase) : emitting [] r = r := rfl

@[simp] theorem emitting_emitting (es fs : List Event) (r : List Event × Phase) :
    emitting es (emitting fs r) = emitting (es ++ fs) r := by
  simp [emitting]

/-- What `run` does after `read_frame` on `answers`: it waits, fails, or hands the frame over and begins the
next iteration (R170). -/
def afterRead (cap : Option Nat) (c : Config) (answers : List Answer) : ReadResult → List Event × Phase
  | .blocked _ => ([], .reading)
  | .err cause code _ => ([.fail cause code], .failed)
  | .ok v buf =>
    emitting (if 0 < c.frameLen then [Event.frame c.width c.height buf] else [])
      (referenceRun cap c (answers.drop v))

/-- What `run` does after `sync` on `answers`: it waits, fails, or logs what was skipped and reads a frame
(R170). -/
def afterSync (cap : Option Nat) (c : Config) (answers : List Answer) : SyncResult → List Event × Phase
  | .blocked _ _ => ([], .syncing)
  | .err cause code _ => ([.fail cause code], .failed)
  | .ok u skipped =>
    emitting (if skipped = [] then [] else [Event.log skipped])
      (afterRead cap c (answers.drop u) (readFrameOf c.frameLen (answers.drop u)))

section
variable (cap : Option Nat) {c : Config} (hL : 0 < c.marker.length)
include hL

/-- A successful scan uses up at least one answer, so what an iteration leaves is shorter. -/
theorem length_drop_lt_of_sync_ok {answers : List Answer} {u : Nat} {skipped : List Byte}
    (h : sync c.marker cap answers = .ok u skipped) (v : Nat) :
    ((answers.drop u).drop v).length < answers.length := by
  obtain ⟨hsuffix, hused⟩ := marker_suffix_of_sync_ok c.marker cap h
  have hlen := hsuffix.length_le
  simp only [length_byteAnswers, List.length_take, List.length_drop] at hlen ⊢
  omega

/-- Fuel beyond the number of answers makes no difference. -/
theorem runFrom_eq_of_length_lt {answers : List Answer} {f g : Nat} (hf : answers.length < f)
    (hg : answers.length < g) : runFrom cap c f answers = runFrom cap c g answers := by
  induction f generalizing g answers with
  | zero => simp at hf
  | succ f ih =>
    obtain ⟨g, rfl⟩ := Nat.exists_eq_succ_of_ne_zero (Nat.ne_zero_of_lt hg)
    cases hsync : sync c.marker cap answers with
    | blocked _ _ => simp [runFrom, hsync]
    | err _ _ _ => simp [runFrom, hsync]
    | ok u skipped =>
      cases hread : readFrameOf c.frameLen (answers.drop u) with
      | blocked _ => simp [runFrom, hsync, hread]
      | err _ _ _ => simp [runFrom, hsync, hread]
      | ok v buf =>
        have hshort := length_drop_lt_of_sync_ok cap hL hsync v
        have hlater := ih (hshort.trans_le (Nat.le_of_lt_succ hf)) (hshort.trans_le (Nat.le_of_lt_succ hg))
        simp only [runFrom, hsync, hread, hlater]

/-- `run` is `sync` and what follows it. -/
theorem referenceRun_eq (answers : List Answer) :
    referenceRun cap c answers = afterSync cap c answers (sync c.marker cap answers) := by
  rw [referenceRun]
  cases hsync : sync c.marker cap answers with
  | blocked _ _ => simp [runFrom, hsync, afterSync]
  | err _ _ _ => simp [runFrom, hsync, afterSync]
  | ok u skipped =>
    cases hread : readFrameOf c.frameLen (answers.drop u) with
    | blocked _ => simp [runFrom, hsync, hread, afterSync, afterRead, emitting]
    | err _ _ _ => simp [runFrom, hsync, hread, afterSync, afterRead, emitting]
    | ok v buf =>
      have hlater := runFrom_eq_of_length_lt cap hL (length_drop_lt_of_sync_ok cap hL hsync v)
        (Nat.lt_succ_self _)
      simp only [runFrom, hsync, hread, afterSync, afterRead, emitting_emitting, hlater]
      rfl

end

/-! ## Stimulus programs of answers and idle steps -/

/-- The steps an item can cost: an answer may be the last of an iteration, which three steps without an answer
complete (`SCAN.DONE`, `READ.DONE` and the hand-over or skip). -/
def itemCost : Item → Nat
  | .answer _ => 4
  | .idle k => k
  | .ack => 0
  | .reset => 0

/-- The steps a stimulus program can cost. -/
def stimulusCost (items : List Item) : Nat := (items.map itemCost).sum

@[simp] theorem stimulusCost_cons (x : Item) (rest : List Item) :
    stimulusCost (x :: rest) = itemCost x + stimulusCost rest :=
  List.sum_cons

@[simp] theorem answersOf_nil : answersOf [] = [] := rfl
@[simp] theorem answersOf_answer (a : Answer) (rest : List Item) :
    answersOf (.answer a :: rest) = a :: answersOf rest := rfl
@[simp] theorem answersOf_ack (rest : List Item) : answersOf (.ack :: rest) = answersOf rest := rfl
@[simp] theorem answersOf_idle (k : Nat) (rest : List Item) : answersOf (.idle k :: rest) = answersOf rest := rfl
@[simp] theorem answersOf_reset (rest : List Item) : answersOf (.reset :: rest) = answersOf rest := rfl

section
variable (items : List Item)

/-- Passing over `I 0` items changes neither the answers nor the cost. -/
theorem answersOf_settle : answersOf (Item.settle items) = answersOf items := by
  fun_induction Item.settle items with
  | case1 rest ih => exact ih
  | case2 l => rfl

theorem stimulusCost_settle : stimulusCost (Item.settle items) = stimulusCost items := by
  fun_induction Item.settle items with
  | case1 rest ih => simp [ih, itemCost]
  | case2 l => rfl

theorem settle_ne_idle_zero (rest : List Item) : Item.settle items ≠ .idle 0 :: rest := by
  fun_induction Item.settle items with
  | case1 rest' ih => exact ih
  | case2 l h => exact h rest

/-- A step that takes an answer takes the first one of the program. -/
theorem itemsAfter_of_answered {items : List Item} {prompt display : Bool} {a : Answer} {k : Taken}
    (hsrc : (Item.offer prompt display items).src = some a) (hk : k.answered = true) :
    answersOf items = a :: answersOf (itemsAfter k items) ∧
      stimulusCost items = stimulusCost (itemsAfter k items) + 4 := by
  obtain ⟨rest, hs⟩ := (offer_src_eq_some prompt display items a).mp hsrc
  rw [← answersOf_settle, ← stimulusCost_settle]
  simp [itemsAfter, hs, hk, itemCost, add_comm]

/-- A step that takes no answer leaves them all to come. -/
theorem itemsAfter_of_not_answered {k : Taken} (hk : k.answered = false) :
    answersOf (itemsAfter k items) = answersOf items ∧
      stimulusCost (itemsAfter k items) ≤ stimulusCost items := by
  rw [← answersOf_settle items, ← stimulusCost_settle items]
  unfold itemsAfter
  cases Item.settle items with
  | nil => simp
  | cons x rest =>
    cases x with
    | answer a => simp [hk]
    | ack => by_cases hack : k = .ack <;> simp [hack]
    | idle m => simp [itemCost]
    | reset => simp

end

section
variable {p : Build} {items : List Item}

theorem plainStimulus_settle (h : plainStimulus p items = true) : plainStimulus p (Item.settle items) = true := by
  simp only [plainStimulus, List.all_eq_true] at h ⊢
  exact fun x hx => h x ((settle_sublist items).subset hx)

/-- What comes next in a plain program: nothing, an idle step, or an answer that the interface can carry. -/
theorem settle_of_plainStimulus (h : plainStimulus p items = true) :
    Item.settle items = [] ∨
      (∃ k rest, Item.settle items = .idle (k + 1) :: rest ∧ plainStimulus p rest = true) ∨
      ∃ a rest, Item.settle items = .answer a :: rest ∧ a.wf p = true ∧ plainStimulus p rest = true := by
  have hplain := plainStimulus_settle h
  cases hs : Item.settle items with
  | nil => exact .inl rfl
  | cons x rest =>
    rw [hs, plainStimulus, List.all_cons, Bool.and_eq_true] at hplain
    obtain ⟨hx, hrest⟩ := hplain
    cases x with
    | answer a => exact .inr (.inr ⟨a, rest, rfl, hx, hrest⟩)
    | idle k =>
      cases k with
      | zero => exact absurd hs (settle_ne_idle_zero items rest)
      | succ k => exact .inr (.inl ⟨k, rest, rfl, hrest⟩)
    | ack => cases hx
    | reset => cases hx

theorem plainStimulus_itemsAfter (h : plainStimulus p items = true) (k : Taken) :
    plainStimulus p (itemsAfter k items) = true := by
  obtain hs | ⟨m, rest, hs, hrest⟩ | ⟨a, rest, hs, ha, hrest⟩ := settle_of_plainStimulus h
  · simp [itemsAfter, hs, plainStimulus]
  · simpa [itemsAfter, hs, plainStimulus] using hrest
  · cases hk : k.answered
    · simpa [itemsAfter, hs, hk, plainStimulus, ha] using hrest
    · simpa [itemsAfter, hs, hk] using hrest

/-- An idle step is used up by the step it silences. -/
theorem stimulusCost_itemsAfter_idle {k : Nat} {rest : List Item}
    (hs : Item.settle items = .idle (k + 1) :: rest) (taken : Taken) :
    stimulusCost (itemsAfter taken items) < stimulusCost items := by
  rw [← stimulusCost_settle items]
  simp [itemsAfter, hs, itemCost]

/-- Where a plain program offers no answer, it has none left or the step is one of its idle steps. -/
theorem answersOf_eq_nil_or_idle (h : plainStimulus p items = true) {display : Bool}
    (hsrc : (Item.offer true display items).src = none) (k : Taken) :
    answersOf items = [] ∨ stimulusCost (itemsAfter k items) < stimulusCost items := by
  obtain hs | ⟨m, rest, hs, -⟩ | ⟨a, rest, hs, -⟩ := settle_of_plainStimulus h
  · exact .inl (by rw [← answersOf_settle, hs, answersOf_nil])
  · exact .inr (stimulusCost_itemsAfter_idle hs k)
  · simp [Item.offer, hs] at hsrc

/-- A prompt sink acknowledges a presented frame in every step that is not an idle one. -/
theorem idle_of_ack_eq_false (h : plainStimulus p items = true) (hack : (Item.offer true true items).ack = false)
    (k : Taken) : stimulusCost (itemsAfter k items) < stimulusCost items := by
  obtain hs | ⟨m, rest, hs, -⟩ | ⟨a, rest, hs, -⟩ := settle_of_plainStimulus h
  · simp [Item.offer, hs] at hack
  · exact stimulusCost_itemsAfter_idle hs k
  · simp [Item.offer, hs] at hack

/-- A plain program drives neither `rst` nor the configuration, and every answer it offers is one the interface
can carry. -/
theorem offer_of_plainStimulus (h : plainStimulus p items = true) (display : Bool) :
    (Item.offer true display items).rst = false ∧ (Item.offer true display items).cfg = none ∧
      ∀ a, (Item.offer true display items).src = some a → a.wf p = true := by
  obtain hs | ⟨m, rest, hs, -⟩ | ⟨a, rest, hs, ha, -⟩ := settle_of_plainStimulus h
  · simp [Item.offer, hs]
  · simp [Item.offer, hs]
  · simpa [Item.offer, hs] using ha

end

/-- The state runs under legal parameters `p` and a legal configuration `c`, with the plain program `items` and a
prompt sink as its environment. -/
structure State.Stimulated (p : Build) (c : Config) (items : List Item) (s : State) : Prop where
  build_wf : p.wf = true
  cfg_wf : c.wf p = true
  build : s.build = p
  cfg : s.cfg = c
  env : s.env = .program items true
  plain : plainStimulus p items = true

section
variable {p : Build} {c : Config} {items : List Item} {s t : State}

theorem State.Stimulated.input (h : s.Stimulated p c items) :
    s.input = Item.offer true (decide (s.phase = .display)) items :=
  s.input_program items true h.env

theorem State.Stimulated.running (h : s.Stimulated p c items) : s.Running := by
  obtain ⟨hrst, hcfg, hsrc⟩ := offer_of_plainStimulus h.plain (decide (s.phase = .display))
  rw [← h.input] at hrst hcfg hsrc
  refine ⟨hrst, by simp [State.cfgStable, hcfg], ?_, ?_⟩
  · exact (cfgLegal_iff s).mpr ⟨by rw [h.build, h.build_wf], by rw [h.build, h.cfg, h.cfg_wf]⟩
  · cases hs : s.input.src with
    | none => simp [State.srcLegal, hs]
    | some a => simp [State.srcLegal, hs, h.build, hsrc a hs]

theorem State.Stimulated.marker_length (h : s.Stimulated p c items) : c.marker.length = s.markerLen := by
  obtain ⟨-, hlen, -⟩ := (c.wf_iff p).mp h.cfg_wf
  rw [hlen, ← h.cfg]

theorem State.Stimulated.frameLen_eq (h : s.Stimulated p c items) : s.frameLen = c.frameLen :=
  congrArg Config.frameLen h.cfg

/-- A step at run time takes what it takes from the program. -/
theorem State.Stimulated.exec_next {i : Instr} (h : s.Stimulated p c items) (hreset : i ≠ .reset)
    (hexec : exec i s = .next t) : t.Stimulated p c (itemsAfter (takenBy i) items) := by
  have hmoves := movesSurroundings_of_exec_next i s t hexec
  exact ⟨h.build_wf, h.cfg_wf, hmoves.build.trans h.build, (hmoves.cfg hreset).trans h.cfg,
    by simp [hmoves.env, h.env], plainStimulus_itemsAfter h.plain _⟩

theorem State.Stimulated.endStep (h : s.Stimulated p c items) (k : Taken) :
    (s.endStep k).Stimulated p c (itemsAfter k items) :=
  ⟨h.build_wf, h.cfg_wf, h.build, h.cfg, by simp [h.env], plainStimulus_itemsAfter h.plain k⟩

/-- The answer on offer is the next one of the program. -/
theorem State.Stimulated.answersOf_eq_cons (h : s.Stimulated p c items) {a : Answer}
    (hsrc : s.input.src = some a) {k : Taken} (hk : k.answered = true) :
    answersOf items = a :: answersOf (itemsAfter k items) ∧
      stimulusCost items = stimulusCost (itemsAfter k items) + 4 :=
  itemsAfter_of_answered (h.input ▸ hsrc) hk

theorem State.Stimulated.src_eq_none (h : s.Stimulated p c items) (hend : answersOf items = []) :
    s.input.src = none :=
  Option.eq_none_iff_forall_ne_some.mpr fun _ hsrc => by
    simp [(h.answersOf_eq_cons hsrc Taken.answered_byte).1] at hend

end

/-! ## A run held against the reference function (O57)

At every step the events so far, and what the loops of R131, R148 and R170 still make of the answers to come, are
together the result of `run`. -/

section
variable (p : Build) (c : Config) (result : List Event × Phase) (items : List Item)

/-- In `SYNCING`, where `sync` has consumed `used` of the answers `all`. -/
structure State.Scans (all : List Answer) (used : Nat) (s : State) : Prop where
  stim : s.Stimulated p c items
  phase : s.phase = .syncing
  progress_le : s.progress ≤ s.markerLen
  rest : answersOf items = all.drop used
  result_eq : emitting s.out (afterSync p.skipCap c all
    (syncFrom c.marker p.skipCap (answersOf items) s.progress s.skipped used)) = result

/-- In `READING`, where `read_frame` has put the first of the answers `all` into `buf`. -/
structure State.Reads (all : List Answer) (buf : List Byte) (s : State) : Prop where
  stim : s.Stimulated p c items
  phase : s.phase = .reading
  count : s.count = buf.length
  count_le : s.count ≤ s.frameLen
  cells : ∀ j, j < buf.length → fbRead s.fb j = buf[j]?
  rest : answersOf items = all.drop buf.length
  result_eq : emitting s.out (afterRead p.skipCap c all
    (readFrameFrom c.frameLen (answersOf items) buf buf.length)) = result

/-- In `DISPLAY`, where the frame `buf` is presented. -/
structure State.Shows (buf : List Byte) (s : State) : Prop where
  stim : s.Stimulated p c items
  phase : s.phase = .display
  bytes : s.frameBytes = some buf
  result_eq : emitting (s.out ++ [.frame c.width c.height buf])
    (referenceRun p.skipCap c (answersOf items)) = result

/-- In `SKIP`. -/
structure State.Skips (s : State) : Prop where
  stim : s.Stimulated p c items
  phase : s.phase = .skip
  result_eq : emitting s.out (referenceRun p.skipCap c (answersOf items)) = result

/-- The result is complete: the run has failed, or waits for an answer that never comes. -/
structure State.Settled (s : State) : Prop where
  stim : s.Stimulated p c items
  result_eq : (s.out, s.phase) = result
  rests : (s.requesting = true ∧ answersOf items = []) ∨ s.phase = .failed

end

section
variable {p : Build} {c : Config} {result : List Event × Phase} {items : List Item} {all : List Answer}
  {used : Nat} {buf : List Byte} {s : State}

/-- A settled run stays as it is. -/
theorem State.Settled.step_rest (h : s.Settled p c result items) :
    step s = .next (s.endStep .nothing) ∧ (s.endStep .nothing).Settled p c result (itemsAfter .nothing items) := by
  obtain ⟨hanswers, -⟩ := itemsAfter_of_not_answered items Taken.answered_nothing
  refine ⟨step_of_waiting h.stim.running ?_, h.stim.endStep _, h.result_eq, ?_⟩
  · exact h.rests.imp (fun ⟨hreq, hend⟩ => ⟨hreq, h.stim.src_eq_none hend⟩) .inr
  · rw [hanswers]
    exact h.rests

theorem drop_succ_of_drop_eq_cons {a : Answer} {l : List Answer} {k : Nat} (h : all.drop k = a :: l) :
    all.drop (k + 1) = l := by
  rw [← List.tail_drop, h, List.tail_cons]

theorem State.Scans.requesting (h : s.Scans p c result items all used) (hlt : s.progress < s.markerLen) :
    s.requesting = true :=
  (requesting_iff s).mpr (.inl ⟨h.phase, hlt⟩)

/-- `SCAN.MATCH` and `SCAN.MISS` are the two branches of `sync` for a byte. -/
theorem State.Scans.step_byte (h : s.Scans p c result items all used) (hlt : s.progress < s.markerLen) {b : Byte}
    (hsrc : s.input.src = some (.byte b)) :
    ∃ t, step s = .next t ∧ t.Scans p c result (itemsAfter .byte items) all (used + 1) := by
  obtain ⟨stim, hphase, -, hrest, hresult⟩ := h
  have hrun := stim.running
  have hltm : s.progress < c.marker.length := stim.marker_length ▸ hlt
  have hbyte := (offeredByte_eq_some s b).mpr hsrc
  have hmarker : c.marker[s.progress]? = s.expected := by rw [State.expected, stim.cfg]
  obtain ⟨hcons, -⟩ := stim.answersOf_eq_cons hsrc Taken.answered_byte
  have hrest' := (drop_succ_of_drop_eq_cons (hrest.symm.trans hcons)).symm
  rw [hcons] at hresult
  by_cases hexpected : s.expected = some b
  · obtain ⟨hexec, hstep⟩ := exec_step_next_of_decodeSel hrun
      (decodeSel_opsel_eq_scanMatch s b hrun.1 hphase hlt hsrc hexpected) fun hsel =>
        (exec_scanMatch_next s _).mpr ⟨hsel, ⟨b, hbyte⟩, rfl⟩
    rw [syncFrom_hit _ _ hltm _ _ (hmarker.trans hexpected)] at hresult
    exact ⟨_, hstep, stim.exec_next (by simp) hexec, hphase, hlt, hrest', hresult⟩
  · obtain ⟨hexec, hstep⟩ := exec_step_next_of_decodeSel hrun
      (decodeSel_opsel_eq_scanMiss b hrun.1 hphase hlt hsrc hexpected) fun hsel =>
        (exec_scanMiss_next s _).mpr ⟨hsel, b, hbyte, rfl⟩
    rw [syncFrom_miss _ _ hltm _ _ (hmarker ▸ hexpected), ← stim.build] at hresult
    exact ⟨_, hstep, stim.exec_next (by simp) hexec, hphase, Nat.zero_le _, hrest', stim.build ▸ hresult⟩

/-- `SCAN.FAIL` is the branch of `sync` for an error. -/
theorem State.Scans.step_err (h : s.Scans p c result items all used) (hlt : s.progress < s.markerLen) {e : Nat}
    (hsrc : s.input.src = some (.err e)) :
    ∃ t, step s = .next t ∧ t.Settled p c result (itemsAfter .error items) := by
  obtain ⟨stim, hphase, -, -, hresult⟩ := h
  have hrun := stim.running
  obtain ⟨hcons, -⟩ := stim.answersOf_eq_cons hsrc Taken.answered_error
  rw [hcons, syncFrom_err _ _ (stim.marker_length ▸ hlt)] at hresult
  obtain ⟨hexec, hstep⟩ := exec_step_next_of_decodeSel hrun
    (decodeSel_opsel_eq_scanFail e hrun.1 hphase hlt hsrc) fun hsel =>
      (exec_scanFail_next s _).mpr ⟨hsel, e, (offeredCode_eq_some s e).mpr hsrc, rfl⟩
  exact ⟨_, hstep, stim.exec_next (by simp) hexec, hresult, .inr rfl⟩

/-- `WAIT.SCAN`: what `sync` makes of the answers to come does not change while none is on offer. -/
theorem State.Scans.step_none (h : s.Scans p c result items all used) (hlt : s.progress < s.markerLen)
    (hsrc : s.input.src = none) :
    step s = .next (s.endStep .nothing) ∧
      (s.endStep .nothing).Scans p c result (itemsAfter .nothing items) all used := by
  obtain ⟨hanswers, -⟩ := itemsAfter_of_not_answered items Taken.answered_nothing
  refine ⟨step_of_waiting h.stim.running (.inl ⟨h.requesting hlt, hsrc⟩), h.stim.endStep _, h.phase,
    h.progress_le, hanswers.trans h.rest, ?_⟩
  rw [hanswers]
  exact h.result_eq

/-- With no answer left, `sync` is blocked. -/
theorem State.Scans.settled (h : s.Scans p c result items all used) (hlt : s.progress < s.markerLen)
    (hend : answersOf items = []) : s.Settled p c result items := by
  have hresult := h.result_eq
  rw [hend, syncFrom_nil _ _ (h.stim.marker_length ▸ hlt)] at hresult
  refine ⟨h.stim, ?_, .inl ⟨h.requesting hlt, hend⟩⟩
  simpa [emitting, afterSync, h.phase] using hresult

/-- `SCAN.DONE`: `sync` has succeeded, and `read_frame` begins on what it leaves. -/
theorem State.Scans.step_done (h : s.Scans p c result items all used) (hend : s.progress = s.markerLen) :
    ∃ t, step s = .next t ∧ t.Reads p c result (itemsAfter .nothing items) (all.drop used) [] := by
  obtain ⟨stim, hphase, -, hrest, hresult⟩ := h
  have hrun := stim.running
  obtain ⟨hanswers, -⟩ := itemsAfter_of_not_answered items Taken.answered_nothing
  rw [syncFrom_of_complete _ _ _ (hend.trans stim.marker_length.symm)] at hresult
  obtain ⟨hexec, hstep⟩ := exec_step_next_of_decodeSel hrun
    ((decodeSel_opsel_eq_scanDone s).mpr ⟨hrun.1, hphase, hend⟩) fun hsel =>
      (exec_scanDone_next s _).mpr ⟨hsel, rfl⟩
  refine ⟨_, hstep, stim.exec_next (by simp) hexec, rfl, rfl, Nat.zero_le _, by simp, hanswers.trans hrest, ?_⟩
  rw [hanswers, hrest]
  simpa [afterSync, readFrameOf] using hresult

theorem State.Reads.requesting (h : s.Reads p c result items all buf) (hlt : s.count < s.frameLen) :
    s.requesting = true :=
  (requesting_iff s).mpr (.inr ⟨h.phase, hlt⟩)

theorem State.Reads.length_lt (h : s.Reads p c result items all buf) (hlt : s.count < s.frameLen) :
    buf.length < c.frameLen := by
  rwa [← h.count, ← h.stim.frameLen_eq]

/-- `READ.STORE` is the branch of `read_frame` for a byte. -/
theorem State.Reads.step_byte (h : s.Reads p c result items all buf) (hlt : s.count < s.frameLen) {b : Byte}
    (hsrc : s.input.src = some (.byte b)) :
    ∃ t, step s = .next t ∧ t.Reads p c result (itemsAfter .byte items) all (buf ++ [b]) := by
  have hshort := h.length_lt hlt
  obtain ⟨stim, hphase, hcount, -, hcells, hrest, hresult⟩ := h
  have hrun := stim.running
  obtain ⟨hcons, -⟩ := stim.answersOf_eq_cons hsrc Taken.answered_byte
  have hrest' := (drop_succ_of_drop_eq_cons (hrest.symm.trans hcons)).symm
  rw [hcons, readFrameFrom_byte hshort] at hresult
  obtain ⟨hexec, hstep⟩ := exec_step_next_of_decodeSel hrun
    (decodeSel_opsel_eq_readStore s b hrun.1 hphase hlt hsrc) fun hsel =>
      (exec_readStore_next s _).mpr ⟨hsel, b, (offeredByte_eq_some s b).mpr hsrc, hlt, rfl⟩
  have hlength : (buf ++ [b]).length = buf.length + 1 := by simp
  refine ⟨_, hstep, stim.exec_next (by simp) hexec, hphase, ?_, hlt, fun j hj => ?_, ?_, ?_⟩
  · exact (congrArg (· + 1) hcount).trans hlength.symm
  · obtain hj | rfl : j < buf.length ∨ j = s.count := by omega
    · rw [List.getElem?_append_left hj]
      exact (fbRead_fbWrite_ne _ _ _ _ (by omega)).trans (hcells j hj)
    · rw [hcount, List.getElem?_concat_length, ← hcount]
      exact fbRead_fbWrite_same _ _ _
  · rwa [hlength]
  · rwa [hlength]

/-- `READ.FAIL` is the branch of `read_frame` for an error. -/
theorem State.Reads.step_err (h : s.Reads p c result items all buf) (hlt : s.count < s.frameLen) {e : Nat}
    (hsrc : s.input.src = some (.err e)) :
    ∃ t, step s = .next t ∧ t.Settled p c result (itemsAfter .error items) := by
  have hshort := h.length_lt hlt
  obtain ⟨stim, hphase, -, -, -, -, hresult⟩ := h
  have hrun := stim.running
  obtain ⟨hcons, -⟩ := stim.answersOf_eq_cons hsrc Taken.answered_error
  rw [hcons, readFrameFrom_err hshort] at hresult
  obtain ⟨hexec, hstep⟩ := exec_step_next_of_decodeSel hrun
    (decodeSel_opsel_eq_readFail e hrun.1 hphase hlt hsrc) fun hsel =>
      (exec_readFail_next s _).mpr ⟨hsel, e, (offeredCode_eq_some s e).mpr hsrc, rfl⟩
  exact ⟨_, hstep, stim.exec_next (by simp) hexec, hresult, .inr rfl⟩

/-- `WAIT.READ`: what `read_frame` makes of the answers to come does not change while none is on offer. -/
theorem State.Reads.step_none (h : s.Reads p c result items all buf) (hlt : s.count < s.frameLen)
    (hsrc : s.input.src = none) :
    step s = .next (s.endStep .nothing) ∧
      (s.endStep .nothing).Reads p c result (itemsAfter .nothing items) all buf := by
  obtain ⟨hanswers, -⟩ := itemsAfter_of_not_answered items Taken.answered_nothing
  refine ⟨step_of_waiting h.stim.running (.inl ⟨h.requesting hlt, hsrc⟩), h.stim.endStep _, h.phase,
    h.count, h.count_le, h.cells, hanswers.trans h.rest, ?_⟩
  rw [hanswers]
  exact h.result_eq

/-- With no answer left, `read_frame` is blocked. -/
theorem State.Reads.settled (h : s.Reads p c result items all buf) (hlt : s.count < s.frameLen)
    (hend : answersOf items = []) : s.Settled p c result items := by
  have hresult := h.result_eq
  rw [hend, readFrameFrom_nil (h.length_lt hlt)] at hresult
  refine ⟨h.stim, ?_, .inl ⟨h.requesting hlt, hend⟩⟩
  simpa [emitting, afterRead, h.phase] using hresult

/-- `READ.DONE`: `read_frame` has succeeded; a frame is presented, an empty one skipped. -/
theorem State.Reads.step_done (h : s.Reads p c result items all buf) (hend : s.count = s.frameLen) :
    ∃ t, step s = .next t ∧ (t.Shows p c result (itemsAfter .nothing items) buf ∨
      t.Skips p c result (itemsAfter .nothing items)) := by
  obtain ⟨stim, hphase, hcount, -, hcells, hrest, hresult⟩ := h
  have hrun := stim.running
  obtain ⟨hanswers, -⟩ := itemsAfter_of_not_answered items Taken.answered_nothing
  have hlength : buf.length = s.frameLen := hcount.symm.trans hend
  rw [readFrameFrom_of_complete _ (hlength.trans stim.frameLen_eq), afterRead, ← hrest, ← hanswers] at hresult
  obtain ⟨hexec, hstep⟩ := exec_step_next_of_decodeSel hrun
    (decodeSel_opsel_eq_readDone s hrun.1 hphase hend) fun hsel => (exec_readDone_next s _).mpr ⟨hsel, rfl⟩
  have stim' := stim.exec_next (by simp) hexec
  refine ⟨_, hstep, ?_⟩
  obtain hN | hN := c.frameLen.eq_zero_or_pos
  · refine .inr ⟨stim', ?_, ?_⟩
    · simp [State.emptyFrame, stim.frameLen_eq, hN]
    · simpa [hN] using hresult
  · refine .inl ⟨stim', ?_, (frameBytes_eq_some s buf).mpr ⟨hlength, hlength ▸ hcells⟩, ?_⟩
    · simp [State.emptyFrame, stim.frameLen_eq, hN.ne']
    · simpa [hN] using hresult

/-- What `run` makes of the answers is what its first iteration makes of them. -/
theorem State.Stimulated.scans (stim : s.Stimulated p c items) (hphase : s.phase = .syncing)
    (hprogress : s.progress = 0) (hskipped : s.skipped = [])
    (hresult : emitting s.out (referenceRun p.skipCap c (answersOf items)) = result) :
    s.Scans p c result items (answersOf items) 0 ∧ s.progress < s.markerLen := by
  obtain ⟨hL, hlen, -⟩ := (c.wf_iff p).mp stim.cfg_wf
  have hlt : s.progress < s.markerLen := by rwa [hprogress, State.markerLen, stim.cfg]
  refine ⟨⟨stim, hphase, hlt.le, rfl, ?_⟩, hlt⟩
  rwa [hprogress, hskipped, ← sync, ← referenceRun_eq p.skipCap (hlen ▸ hL)]

/-- `PIPE.SHOW`: the frame is handed over, and the next iteration begins. -/
theorem State.Shows.step_ack (h : s.Shows p c result items buf) (hack : s.input.ack = true) :
    ∃ t, step s = .next t ∧
      t.Scans p c result (itemsAfter .ack items) (answersOf (itemsAfter .ack items)) 0 ∧
      t.progress < t.markerLen := by
  obtain ⟨stim, hphase, hbytes, hresult⟩ := h
  have hrun := stim.running
  obtain ⟨hanswers, -⟩ := itemsAfter_of_not_answered items Taken.answered_ack
  obtain ⟨hexec, hstep⟩ := exec_step_next_of_decodeSel hrun
    (decodeSel_opsel_eq_pipeShow s hrun.1 hphase hack) fun hsel =>
      (exec_pipeShow_next s _).mpr ⟨hsel, buf, hbytes, rfl⟩
  refine ⟨_, hstep, (stim.exec_next (by simp) hexec).scans rfl rfl rfl ?_⟩
  rw [← hanswers] at hresult
  simpa [stim.cfg, takenBy] using hresult

/-- `WAIT.SHOW`: the frame stays presented. -/
theorem State.Shows.step_wait (h : s.Shows p c result items buf) (hack : s.input.ack = false) :
    step s = .next (s.endStep .nothing) ∧
      (s.endStep .nothing).Shows p c result (itemsAfter .nothing items) buf := by
  obtain ⟨hanswers, -⟩ := itemsAfter_of_not_answered items Taken.answered_nothing
  refine ⟨step_of_waiting h.stim.running (.inr (.inl ⟨h.phase, hack⟩)), h.stim.endStep _, h.phase, h.bytes, ?_⟩
  rw [hanswers]
  exact h.result_eq

/-- `PIPE.SKIP`: the next iteration begins. -/
theorem State.Skips.step_skip (h : s.Skips p c result items) :
    ∃ t, step s = .next t ∧
      t.Scans p c result (itemsAfter .nothing items) (answersOf (itemsAfter .nothing items)) 0 ∧
      t.progress < t.markerLen := by
  obtain ⟨stim, hphase, hresult⟩ := h
  have hrun := stim.running
  obtain ⟨hanswers, -⟩ := itemsAfter_of_not_answered items Taken.answered_nothing
  obtain ⟨hexec, hstep⟩ := exec_step_next_of_decodeSel hrun (decodeSel_opsel_eq_pipeSkip hrun.1 hphase)
    fun hsel => (exec_pipeSkip_next s _).mpr ⟨hsel, rfl⟩
  rw [← hanswers] at hresult
  exact ⟨_, hstep, (stim.exec_next (by simp) hexec).scans rfl rfl rfl hresult⟩

end

/-- Where a run stands that settles within `n` steps: the cost of the items to come, and one step for each of the
operations without an answer that the iteration still needs, stay below `n`. -/
inductive State.RunStage (p : Build) (c : Config) (result : List Event × Phase) : Nat → State → Prop where
  | scanning (n : Nat) (items : List Item) (all : List Answer) (used : Nat) (s : State)
      (h : s.Scans p c result items all used)
      (hn : stimulusCost items + (if s.progress = s.markerLen then 3 else 0) < n) : RunStage p c result n s
  | reading (n : Nat) (items : List Item) (all : List Answer) (buf : List Byte) (s : State)
      (h : s.Reads p c result items all buf) (hn : stimulusCost items + 2 < n) : RunStage p c result n s
  | showing (n : Nat) (items : List Item) (buf : List Byte) (s : State)
      (h : s.Shows p c result items buf) (hn : stimulusCost items + 1 < n) : RunStage p c result n s
  | skipping (n : Nat) (items : List Item) (s : State)
      (h : s.Skips p c result items) (hn : stimulusCost items + 1 < n) : RunStage p c result n s
  | settled (n : Nat) (items : List Item) (s : State)
      (h : s.Settled p c result items) : RunStage p c result n s

section
variable {p : Build} {c : Config} {result : List Event × Phase} {items : List Item} {all : List Answer}
  {used n : Nat} {buf : List Byte} {s : State}

/-- A settled run is settled after every further step. -/
theorem State.Settled.exists_next (h : s.Settled p c result items) :
    ∃ t, step s = .next t ∧ RunStage p c result n t :=
  ⟨_, h.step_rest.1, .settled n _ _ h.step_rest.2⟩

/-- Where no answer is on offer, the step is an idle one or the run has settled. -/
theorem State.Scans.exists_next (h : s.Scans p c result items all used)
    (hn : stimulusCost items + (if s.progress = s.markerLen then 3 else 0) ≤ n) :
    ∃ t, step s = .next t ∧ RunStage p c result n t := by
  obtain hlt | hend := h.progress_le.lt_or_eq
  · rw [if_neg hlt.ne] at hn
    rcases hsrc : s.input.src with _ | (b | e)
    · obtain hend | hidle := answersOf_eq_nil_or_idle h.stim.plain (h.stim.input ▸ hsrc) .nothing
      · exact (h.settled hlt hend).exists_next
      · obtain ⟨hstep, h'⟩ := h.step_none hlt hsrc
        refine ⟨_, hstep, .scanning n _ _ _ _ h' ?_⟩
        rw [if_neg (c := (s.endStep .nothing).progress = (s.endStep .nothing).markerLen) hlt.ne]
        omega
    · obtain ⟨-, hcost⟩ := h.stim.answersOf_eq_cons hsrc Taken.answered_byte
      obtain ⟨t, hstep, ht⟩ := h.step_byte hlt hsrc
      exact ⟨t, hstep, .scanning n _ _ _ t ht (by split <;> omega)⟩
    · obtain ⟨t, hstep, ht⟩ := h.step_err hlt hsrc
      exact ⟨t, hstep, .settled n _ t ht⟩
  · rw [if_pos hend] at hn
    obtain ⟨-, hcost⟩ := itemsAfter_of_not_answered items Taken.answered_nothing
    obtain ⟨t, hstep, ht⟩ := h.step_done hend
    exact ⟨t, hstep, .reading n _ _ _ t ht (by omega)⟩

theorem State.Reads.exists_next (h : s.Reads p c result items all buf) (hn : stimulusCost items + 2 ≤ n) :
    ∃ t, step s = .next t ∧ RunStage p c result n t := by
  obtain hlt | hend := h.count_le.lt_or_eq
  · rcases hsrc : s.input.src with _ | (b | e)
    · obtain hend | hidle := answersOf_eq_nil_or_idle h.stim.plain (h.stim.input ▸ hsrc) .nothing
      · exact (h.settled hlt hend).exists_next
      · obtain ⟨hstep, h'⟩ := h.step_none hlt hsrc
        exact ⟨_, hstep, .reading n _ _ _ _ h' (by omega)⟩
    · obtain ⟨-, hcost⟩ := h.stim.answersOf_eq_cons hsrc Taken.answered_byte
      obtain ⟨t, hstep, ht⟩ := h.step_byte hlt hsrc
      exact ⟨t, hstep, .reading n _ _ _ t ht (by omega)⟩
    · obtain ⟨t, hstep, ht⟩ := h.step_err hlt hsrc
      exact ⟨t, hstep, .settled n _ t ht⟩
  · obtain ⟨-, hcost⟩ := itemsAfter_of_not_answered items Taken.answered_nothing
    obtain ⟨t, hstep, ht | ht⟩ := h.step_done hend
    · exact ⟨t, hstep, .showing n _ _ t ht (by omega)⟩
    · exact ⟨t, hstep, .skipping n _ t ht (by omega)⟩

theorem State.Shows.exists_next (h : s.Shows p c result items buf) (hn : stimulusCost items + 1 ≤ n) :
    ∃ t, step s = .next t ∧ RunStage p c result n t := by
  cases hack : s.input.ack with
  | true =>
    obtain ⟨-, hcost⟩ := itemsAfter_of_not_answered items Taken.answered_ack
    obtain ⟨t, hstep, ht, hlt⟩ := h.step_ack hack
    exact ⟨t, hstep, .scanning n _ _ _ t ht (by rw [if_neg hlt.ne]; omega)⟩
  | false =>
    have hsilent : (Item.offer true true items).ack = false := by
      simpa [h.stim.input, h.phase] using hack
    have hidle := idle_of_ack_eq_false h.stim.plain hsilent .nothing
    obtain ⟨hstep, h'⟩ := h.step_wait hack
    exact ⟨_, hstep, .showing n _ _ _ h' (by omega)⟩

theorem State.Skips.exists_next (h : s.Skips p c result items) (hn : stimulusCost items + 1 ≤ n) :
    ∃ t, step s = .next t ∧ RunStage p c result n t := by
  obtain ⟨-, hcost⟩ := itemsAfter_of_not_answered items Taken.answered_nothing
  obtain ⟨t, hstep, ht, hlt⟩ := h.step_skip
  exact ⟨t, hstep, .scanning n _ _ _ t ht (by rw [if_neg hlt.ne]; omega)⟩

/-- Every step of a run leads to a stage that settles one step sooner. -/
theorem State.RunStage.exists_next (h : RunStage p c result n s) :
    ∃ t, step s = .next t ∧ RunStage p c result (n - 1) t := by
  cases h with
  | scanning items all used _ h hn => exact h.exists_next (Nat.le_sub_one_of_lt hn)
  | reading items all buf _ h hn => exact h.exists_next (Nat.le_sub_one_of_lt hn)
  | showing items buf _ h hn => exact h.exists_next (Nat.le_sub_one_of_lt hn)
  | skipping items _ h hn => exact h.exists_next (Nat.le_sub_one_of_lt hn)
  | settled items _ h => exact h.exists_next

/-- With no step left, the run has settled. -/
theorem State.RunStage.result_eq (h : RunStage p c result 0 s) : (s.out, s.phase) = result := by
  cases h with
  | scanning _ _ _ _ _ hn => exact absurd hn (Nat.not_lt_zero _)
  | reading _ _ _ _ _ hn => exact absurd hn (Nat.not_lt_zero _)
  | showing _ _ _ _ hn => exact absurd hn (Nat.not_lt_zero _)
  | skipping _ _ _ hn => exact absurd hn (Nat.not_lt_zero _)
  | settled _ _ h => exact h.result_eq

end

/-- Settles O57: the run starts where `run` does, and settles within the cost of its stimulus. -/
theorem stepwiseRunAgreesWithReference : Obligations.StepwiseRunAgreesWithReference := by
  intro p c items hp hc hplain
  have stim : (State.start p c (.program items true)).Stimulated p c items := ⟨hp, hc, rfl, rfl, rfl, hplain⟩
  obtain ⟨hscans, hlt⟩ := stim.scans rfl rfl rfl rfl
  refine ⟨stimulusCost items + 1, fun n hn => ?_⟩
  have hstart := State.RunStage.scanning (stimulusCost items + 1 - 0) _ _ _ _ hscans (by simp [hlt.ne])
  obtain ⟨t, hrun, ht⟩ := runSteps_of_step
    (P := fun k s => s.RunStage p c (referenceRun p.skipCap c (answersOf items)) (stimulusCost items + 1 - k))
    (fun k s h => h.exists_next) n 0 _ hstart
  rw [Nat.zero_add, Nat.sub_eq_zero_of_le hn] at ht
  exact ⟨t, hrun, ht.result_eq⟩

end Sys2Proof.Machine

/-! ## The operations of the reader, one by one (O6, O7, O8, O9) -/

namespace Sys2Proof.Machine

section
variable {s : State}

/-- With a read of the reader outstanding, the answer on offer is the event, and nothing is compared with the
marker (R99, R100). -/
theorem selector_of_reading (hrst : s.input.rst = false) (hp : s.phase = .reading)
    (hlt : s.count < s.frameLen) : s.selector =
      match s.input.src with
      | some (.byte _) => Instr.readStore.selector
      | some (.err _) => Instr.readFail.selector
      | none => Instr.waitRead.selector := by
  have hev := ev_of_requesting s ((requesting_iff s).mpr (.inr ⟨hp, hlt⟩))
  have htc := tc_eq_false_of_reading hp hlt.ne
  rcases hsrc : s.input.src with _ | (b | c) <;>
    simp [State.selector, Instr.selector, State.eq, hrst, hp, hev, htc, hsrc]

/-- With the frame complete no read is outstanding, so whatever is on offer is no event (R99, R100). -/
theorem selector_of_frame_complete (hrst : s.input.rst = false) (hp : s.phase = .reading)
    (hend : s.count = s.frameLen) : s.selector = Instr.readDone.selector := by
  have hreq : s.requesting = false := by simp [State.requesting, hp, hend]
  have hev : s.ev = .none := by simp [ev_of_not_requesting s hreq, hp]
  have htc : s.tc = true := (tc_iff s).mpr (.inr ⟨hp, hend⟩)
  simp [State.selector, Instr.selector, State.eq, hrst, hp, hev, htc]

end

/-- Settles O6: the rules of the cell write give the buffer, and `COUNT` was below `N`, so it stays at most `N`
and reaching `N` ends the read request. -/
theorem readStoreWritesOneCell : Obligations.ReadStoreWritesOneCell := by
  intro s b hrun hp hlt hsrc
  obtain ⟨hopsel, hsel⟩ := selected_of_selector_eq (i := .readStore) hrun
    (by rw [selector_of_reading hrun.1 hp hlt, hsrc])
  refine ⟨hopsel, _, (exec_readStore_next s _).mpr ⟨hsel, b, (offeredByte_eq_some s b).mpr hsrc, hlt, rfl⟩,
    fbRead_fbWrite_same _ _ _, fun a ha => fbRead_fbWrite_ne _ _ _ _ ha, rfl, hlt, fun hlast => ?_⟩
  simp [State.requesting, State.tc, hp, hlast]

/-- Settles O7: the two branches of the operation are the two phases, and a frame is presented in `DISPLAY`
only. -/
theorem readDoneChoosesDisplayOrSkip : Obligations.ReadDoneChoosesDisplayOrSkip := by
  intro s hrun hp hend
  obtain ⟨hopsel, hsel⟩ := selected_of_selector_eq hrun (selector_of_frame_complete hrun.1 hp hend)
  refine ⟨hopsel, _, (exec_readDone_next s _).mpr ⟨hsel, rfl⟩, ?_, ?_⟩
  · simp [State.endStep, State.emptyFrame]
  · obtain hN | hN := s.frameLen.eq_zero_or_pos
    · simp [State.pins, State.emptyFrame, hN]
    · simp [State.pins, State.emptyFrame, hN, hN.ne']

/-- Settles O8: the exception is taken with the sub-code on offer, and in `FAILED` the outputs are fixed. -/
theorem readFailRecordsReadIo : Obligations.ReadFailRecordsReadIo := by
  intro s c hrun hp hlt hsrc
  obtain ⟨hopsel, hsel⟩ := selected_of_selector_eq (i := .readFail) hrun
    (by rw [selector_of_reading hrun.1 hp hlt, hsrc])
  exact ⟨hopsel, _, (exec_readFail_next s _).mpr ⟨hsel, c, (offeredCode_eq_some s c).mpr hsrc, rfl⟩,
    rfl, rfl, rfl, rfl⟩

/-- Settles O9: the operation only ends the step. -/
theorem waitReadChangesNothing : Obligations.WaitReadChangesNothing := by
  intro s hrun hp hlt hsrc
  obtain ⟨hopsel, hsel⟩ := selected_of_selector_eq (i := .waitRead) hrun
    (by rw [selector_of_reading hrun.1 hp hlt, hsrc])
  exact ⟨hopsel, _, (exec_waitRead_next s _).mpr ⟨hsel, rfl⟩, rfl⟩

/-! ## The reader as a function of the stream (O56) -/

/-- With `k` bytes still missing, the loop of `read_frame` succeeds exactly when the next `k` answers are
bytes, and appends those. -/
theorem readFrameFrom_eq_ok_iff {k used used' : Nat} {answers : List Answer} {buf out : List Byte} :
    readFrameFrom (buf.length + k) answers buf used = .ok used' out ↔
      ∃ bytes, out = buf ++ bytes ∧ used' = used + k ∧ bytes.length = k ∧
        byteAnswers bytes = answers.take k := by
  induction k generalizing answers buf used with
  | zero =>
    rw [readFrameFrom_of_complete answers (Nat.add_zero _).symm]
    constructor
    · rintro ⟨⟩
      exact ⟨[], by simp⟩
    · rintro ⟨bytes, rfl, rfl, hlen, -⟩
      simp [List.eq_nil_of_length_eq_zero hlen]
  | succ k ih =>
    have hshort : buf.length < buf.length + (k + 1) := by omega
    rcases answers with _ | ⟨b | c, rest⟩
    · simp [readFrameFrom_nil hshort, byteAnswers]
    · have hlength : buf.length + (k + 1) = (buf ++ [b]).length + k := by simp; omega
      rw [readFrameFrom_byte hshort, hlength, ih]
      constructor
      · rintro ⟨bytes, rfl, rfl, rfl, htake⟩
        exact ⟨b :: bytes, by simp, by omega, rfl, by simp [htake]⟩
      · rintro ⟨bytes, rfl, rfl, hlen, htake⟩
        obtain ⟨_, bytes, rfl, ⟨⟩, hrest⟩ := List.map_eq_cons_iff.mp htake
        exact ⟨bytes, by simp, by omega, Nat.succ.inj hlen, hrest⟩
    · simp [readFrameFrom_err hshort, byteAnswers, List.map_eq_cons_iff]

/-- Settles O56: the loop starts with all `N` bytes missing. -/
theorem readFrameTakesExactlyN : Obligations.ReadFrameTakesExactlyN := by
  refine ⟨fun n answers used buf => ?_, fun answers =>
    readFrameFrom_of_complete answers (buf := []) rfl 0⟩
  have h := readFrameFrom_eq_ok_iff (k := n) (used := 0) (used' := used) (answers := answers) (buf := [])
    (out := buf)
  simpa [readFrameOf] using h

/-! ## Runs with an empty geometry (O43) -/

/-- With `N = 0` no frame is ever presented (R41), so no operation adds a `FRAME` (R145). -/
theorem State.Inv.addsNoFrame {s t : State} {i : Instr} (hinv : s.Inv) (hN : s.frameLen = 0)
    (hexec : exec i s = .next t) : AddsNoFrame s t := by
  refine addsNoFrame_of_exec_next i s t hexec ?_
  rintro rfl
  obtain ⟨-, hp⟩ := guard_of_selected s _ (selected_of_exec_next _ s t hexec)
  obtain ⟨-, -, hpos, -⟩ := hinv.display hp
  exact hpos.ne' hN

theorem AddsNoFrame.mem_of_mem {s t : State} {w h : Nat} {bytes : List Byte} (hadds : AddsNoFrame s t)
    (hmem : Event.frame w h bytes ∈ t.out) : Event.frame w h bytes ∈ s.out := by
  obtain ⟨new, hout, hnone⟩ := hadds
  rw [hout, List.mem_append] at hmem
  exact hmem.resolve_right (hnone w h bytes)

/-- Settles O43, by induction on the number of steps: the table of R41, the quiet environment and `N = 0` hold
after each. -/
theorem emptyGeometryShowsNothing : Obligations.EmptyGeometryShowsNothing := by
  intro n s t hinv hN hquiet hrun w h bytes hmem
  have hs : s.Undisturbed := ⟨hinv, hquiet⟩
  clear hinv hquiet
  induction n generalizing s with
  | zero =>
    obtain rfl : s = t := by simpa [runSteps] using hrun
    exact hmem
  | succ n ih =>
    obtain ⟨u, hstep, hrun'⟩ := (runSteps_succ n s t).mp hrun
    obtain ⟨i, -, hexec⟩ := (step_next s u).mp hstep
    have hu := ih u ((hs.frameLen_eq hexec).trans hN) hrun' (hs.exec_next hexec)
    exact (hs.inv.addsNoFrame hN hexec).mem_of_mem hu

end Sys2Proof.Machine

/-! ## Once failed (O37) -/

namespace Sys2Proof.Machine

/-- A stimulus program drives no configuration bus (R110). -/
@[simp] theorem offer_cfg (prompt display : Bool) (items : List Item) :
    (Item.offer prompt display items).cfg = none := by
  unfold Item.offer
  split <;> rfl

/-- With no change of the configuration to come, its buses show what they showed before (R37, R217). -/
theorem State.cfgStable_of_quiet (s : State) (h : s.env.quiet = true) : s.cfgStable = true := by
  have hcfg : s.input.cfg = none := by
    cases henv : s.env with
    | inputs l =>
      cases l with
      | nil => rw [State.input_idle s henv]
      | cons x l =>
        rw [henv, Env.quiet_inputs] at h
        rw [State.input_cons s x l henv]
        exact (h x (.head _)).2
    | program items prompt => rw [State.input_program s items prompt henv, offer_cfg]
  simp [State.cfgStable, hcfg]

/-- A failed state under a legal configuration, with no reset or change of the configuration to come (R210). -/
structure State.Halted (s : State) : Prop where
  failed : s.phase = .failed
  legal : s.cfgLegal = true
  quiet : s.env.quiet = true

section
variable {s : State}

/-- In `FAILED` no answer is looked at, so none is illegal. -/
theorem State.Halted.running (h : s.Halted) : s.Running := by
  have hreq : s.requesting = false := by simp [State.requesting, h.failed]
  exact ⟨s.input_rst_of_quiet h.quiet, s.cfgStable_of_quiet h.quiet, h.legal, by simp [State.srcLegal, hreq]⟩

/-- `HALT` is selected whatever is on offer, and only ends the step (R164, R215). -/
theorem State.Halted.exec_halt (h : s.Halted) : exec .halt s = .next (s.endStep .nothing) := by
  have hdecode := decodeSel_opsel_eq_halt h.running.1 h.failed
  exact (exec_halt_next s _).mpr ⟨selected_of_running s .halt h.running hdecode, rfl⟩

theorem State.Halted.endStep (h : s.Halted) : (s.endStep .nothing).Halted :=
  ⟨h.failed, h.legal, s.env.quiet_after .nothing h.quiet⟩

end

/-- Settles O37, by induction on the number of steps: each is a `HALT`, and the state after it is failed for
the same reasons. -/
theorem failedStaysSilentUntilReset : Obligations.FailedStaysSilentUntilReset := by
  intro n s hfailed hlegal hquiet
  have h : s.Halted := ⟨hfailed, hlegal, hquiet⟩
  clear hfailed hlegal hquiet
  induction n generalizing s with
  | zero => exact ⟨s, rfl, ⟨rfl, rfl, rfl, rfl, rfl, rfl⟩, rfl, rfl⟩
  | succ n ih =>
    obtain ⟨t, hrun, hsame⟩ := ih _ h.endStep
    exact ⟨t, runOps_succ.mpr ⟨.halt, _, _, h.exec_halt, hrun, rfl⟩, hsame⟩

end Sys2Proof.Machine

/-! ## The events of each operation (O20) -/

namespace Sys2Proof.Machine

/-- Settles O20: the scanner's log, the frame and the two failures are what their operations emit, and the
other ten write no event. -/
theorem eventsByOperation : Obligations.EventsByOperation := by
  intro i s t h
  cases i with
  | scanDone => obtain ⟨-, rfl⟩ := (exec_scanDone_next s t).mp h; exact s.emitLog_out
  | pipeShow => obtain ⟨-, bytes, -, rfl⟩ := (exec_pipeShow_next s t).mp h; exact ⟨bytes, rfl⟩
  | scanFail => obtain ⟨-, c, -, rfl⟩ := (exec_scanFail_next s t).mp h; exact ⟨c, rfl⟩
  | readFail => obtain ⟨-, c, -, rfl⟩ := (exec_readFail_next s t).mp h; exact ⟨c, rfl⟩
  | reset => obtain ⟨-, rfl⟩ := (exec_reset_next s t).mp h; rfl
  | scanMatch => obtain ⟨-, -, rfl⟩ := (exec_scanMatch_next s t).mp h; rfl
  | scanMiss => obtain ⟨-, b, -, rfl⟩ := (exec_scanMiss_next s t).mp h; rfl
  | waitScan => obtain ⟨-, rfl⟩ := (exec_waitScan_next s t).mp h; rfl
  | readStore => obtain ⟨-, b, -, -, rfl⟩ := (exec_readStore_next s t).mp h; rfl
  | readDone => obtain ⟨-, rfl⟩ := (exec_readDone_next s t).mp h; rfl
  | waitRead => obtain ⟨-, rfl⟩ := (exec_waitRead_next s t).mp h; rfl
  | waitShow => obtain ⟨-, rfl⟩ := (exec_waitShow_next s t).mp h; rfl
  | pipeSkip => obtain ⟨-, rfl⟩ := (exec_pipeSkip_next s t).mp h; rfl
  | halt => obtain ⟨-, rfl⟩ := (exec_halt_next s t).mp h; rfl

end Sys2Proof.Machine

/-! ## The operations of the pipeline, one by one (O10, O12, O13, O14) -/

namespace Sys2Proof.Machine

section
variable {s : State}

/-- Outside `SYNCING` and `READING` nothing is compared and nothing counted: only the acknowledgement of a
presented frame is an event (R99, R100). -/
theorem selector_of_pipeline (hrst : s.input.rst = false) (hsyncing : s.phase ≠ .syncing)
    (hreading : s.phase ≠ .reading) : s.selector =
      ⟨false, s.phase, if s.phase = .display ∧ s.input.ack = true then .ack else .none, false, false⟩ := by
  have hreq : s.requesting = false := Bool.eq_false_iff.mpr fun h => by
    simp [requesting_iff, hsyncing, hreading] at h
  simp [State.selector, State.eq, State.tc, hrst, hsyncing, hreading, ev_of_not_requesting s hreq]

/-- A buffer whose cells all hold a value is read as a whole (R62). -/
theorem exists_frameBytes_of_written (h : ∀ i, i < s.frameLen → (fbRead s.fb i).isSome = true) :
    ∃ bytes, s.frameBytes = some bytes := by
  refine Option.ne_none_iff_exists'.mp fun hnone => ?_
  obtain ⟨i, hi, hcell⟩ := (frameBytes_eq_none s).mp hnone
  simpa [hcell] using h i hi

/-- A legal marker has a first byte to ask for (R107). -/
theorem markerLen_pos (hlegal : s.cfgLegal = true) : 0 < s.markerLen := by
  obtain ⟨-, hcfg⟩ := (cfgLegal_iff s).mp hlegal
  obtain ⟨hmlen, -⟩ := (s.cfg.wf_iff s.build).mp hcfg
  exact hmlen

end

/-- Settles O10: the bytes handed over are what `MemRead(FB, 0, N)` gives, and `PROGRESS = 0` is below `L`. -/
theorem pipeShowHandsOverFrame : Obligations.PipeShowHandsOverFrame := by
  intro s hrun hp hack hwritten
  have ⟨hrst, _, hlegal, _⟩ := hrun
  obtain ⟨hopsel, hsel⟩ := selected_of_selector_eq (i := .pipeShow) hrun
    (by simp [selector_of_pipeline hrst, hp, hack, Instr.selector])
  obtain ⟨bytes, hbytes⟩ := exists_frameBytes_of_written hwritten
  obtain ⟨hlen, hcells⟩ := (frameBytes_eq_some s bytes).mp hbytes
  exact ⟨hopsel, bytes, _, (exec_pipeShow_next s _).mpr ⟨hsel, bytes, hbytes, rfl⟩, hlen,
    fun i hi => (hcells i hi).symm, rfl, fun herr => ⟨rfl, rfl, rfl, rfl, rfl, herr⟩,
    (requesting_iff _).mpr (.inl ⟨rfl, markerLen_pos hlegal⟩)⟩

/-- Settles O12: the operation only ends the step, and the outputs are those of `DISPLAY`. -/
theorem waitShowChangesNothing : Obligations.WaitShowChangesNothing := by
  intro s hrun hp hack
  obtain ⟨hopsel, hsel⟩ := selected_of_selector_eq (i := .waitShow) hrun
    (by simp [selector_of_pipeline hrun.1, hp, hack, Instr.selector])
  refine ⟨hopsel, _, (exec_waitShow_next s _).mpr ⟨hsel, rfl⟩, rfl, ?_, ?_⟩
  · simp [State.inReady, State.requesting, hp]
  · simp [State.pins, hp]

/-- Settles O13: the four writes of the operation are the whole change. -/
theorem pipeSkipStartsNextIteration : Obligations.PipeSkipStartsNextIteration := by
  intro s hrun hp
  obtain ⟨hopsel, hsel⟩ := selected_of_selector_eq (i := .pipeSkip) hrun
    (by simp [selector_of_pipeline hrun.1, hp, Instr.selector])
  exact ⟨hopsel, _, (exec_pipeSkip_next s _).mpr ⟨hsel, rfl⟩, rfl⟩

/-- Settles O14: the operation only ends the step, and the outputs are those of `FAILED`. -/
theorem haltChangesNothing : Obligations.HaltChangesNothing := by
  intro s hrun hp
  obtain ⟨hopsel, hsel⟩ := selected_of_selector_eq (i := .halt) hrun
    (by simp [selector_of_pipeline hrun.1, hp, Instr.selector])
  refine ⟨hopsel, _, (exec_halt_next s _).mpr ⟨hsel, rfl⟩, rfl, ?_, ?_, ?_⟩
  · simp [State.inReady, State.requesting, hp]
  · simp [State.pins, hp]
  · simp [State.pins, State.failed, hp]

end Sys2Proof.Machine

/-! ## The way out of `FAILED` (O36) -/

namespace Sys2Proof.Machine

/-- The one way out of `FAILED`, read off the table of R27: `HALT` stays, and every other operation but
`RESET` executes in another phase. -/
theorem leaves_failed (i : Instr) (s t : State) (h : exec i s = .next t) (hs : s.phase = .failed)
    (ht : t.phase ≠ .failed) : i = .reset := by
  have htable := phaseTransitionTable i s t h
  cases i with
  | reset => rfl
  | halt => exact absurd htable.2 ht
  | scanMatch | scanMiss | scanDone | scanFail | waitScan => simp [hs] at htable
  | readStore | readDone | readFail | waitRead => simp [hs] at htable
  | pipeShow | waitShow | pipeSkip => simp [hs] at htable

/-- Settles O36: the operation that leaves `FAILED` is `RESET`, whose guard is `rst = 1`. -/
theorem onlyResetLeavesFailed : Obligations.OnlyResetLeavesFailed := by
  intro s t hfailed hstep hleaves
  obtain ⟨i, hsel, hexec⟩ := (step_next s t).mp hstep
  obtain rfl := leaves_failed i s t hexec hfailed hleaves
  exact ⟨guard_of_selected s .reset hsel, (clean_of_exec_reset hexec).1⟩

end Sys2Proof.Machine

/-! ## A collaborator that has answered is not waited for (O23) -/

namespace Sys2Proof.Machine

section
variable {s : State} (hrst : s.input.rst = false)
include hrst

/-- A scan step with an answer on offer takes it: as a byte that matches or misses, or as an error. -/
theorem exists_taking_of_scanning (hp : s.phase = .syncing) (hlt : s.progress < s.markerLen) {a : Answer}
    (hsrc : s.input.src = some a) : ∃ i, decodeSel s.opsel = some i ∧ takenBy i ≠ .nothing := by
  cases a with
  | byte b =>
    by_cases hexpected : s.expected = some b
    · exact ⟨.scanMatch, decodeSel_opsel_eq_scanMatch s b hrst hp hlt hsrc hexpected, by decide⟩
    · exact ⟨.scanMiss, decodeSel_opsel_eq_scanMiss b hrst hp hlt hsrc hexpected, by decide⟩
  | err c => exact ⟨.scanFail, decodeSel_opsel_eq_scanFail c hrst hp hlt hsrc, by decide⟩

/-- A read step with an answer on offer takes it: as a byte to store, or as an error. -/
theorem exists_taking_of_reading (hp : s.phase = .reading) (hlt : s.count < s.frameLen) {a : Answer}
    (hsrc : s.input.src = some a) : ∃ i, decodeSel s.opsel = some i ∧ takenBy i ≠ .nothing := by
  cases a with
  | byte b => exact ⟨.readStore, decodeSel_opsel_eq_readStore s b hrst hp hlt hsrc, by decide⟩
  | err c => exact ⟨.readFail, decodeSel_opsel_eq_readFail c hrst hp hlt hsrc, by decide⟩

end

/-- Settles O23: a step with the answer it asked for takes something, and no `WAIT` takes anything. -/
theorem neverWaitsWhenAnswered : Obligations.NeverWaitsWhenAnswered := by
  intro s hrun hanswered
  have htaking : ∃ i, decodeSel s.opsel = some i ∧ takenBy i ≠ .nothing := by
    obtain ⟨hready, hsrc⟩ | ⟨hvalid, hack⟩ := hanswered
    · obtain ⟨a, ha⟩ := Option.ne_none_iff_exists'.mp hsrc
      obtain ⟨hp, hlt⟩ | ⟨hp, hlt⟩ := (requesting_iff s).mp ((inReady_iff s false).mp hready).2
      · exact exists_taking_of_scanning hrun.1 hp hlt ha
      · exact exists_taking_of_reading hrun.1 hp hlt ha
    · have hp : s.phase = .display := of_decide_eq_true hvalid
      exact ⟨.pipeShow, decodeSel_opsel_eq_pipeShow s hrun.1 hp hack, by decide⟩
  obtain ⟨i, hdecode, htakes⟩ := htaking
  refine ⟨i, selected_of_running s i hrun hdecode, ?_, ?_, ?_⟩ <;>
    · rintro rfl
      exact htakes rfl

end Sys2Proof.Machine

/-! ## Markers of equal bytes (O55) -/

namespace Sys2Proof.Machine

/-- As far as an attempt goes, the stream holds the marker's bytes. -/
theorem getElem?_eq_of_lt_greedy {marker s : List Byte} {i : Nat} (hi : i < greedy marker s) :
    s[i]? = marker[i]? := by
  induction marker generalizing s i with
  | nil => simp at hi
  | cons m ms ih =>
    cases s with
    | nil => simp at hi
    | cons b s =>
      rw [greedy_cons] at hi
      split at hi
      · next hmb =>
        cases i with
        | zero => simp [hmb]
        | succ i => simpa using ih (Nat.lt_of_succ_lt_succ hi)
      · exact absurd hi (Nat.not_lt_zero i)

section
variable {m : Byte} {len k r : Nat} {s : List Byte} (hk : greedy (List.replicate len m) (s.drop k) = len)
include hk

/-- An occurrence of a marker of equal bytes at `k` shows the marker's byte at each of its positions. -/
theorem getElem?_of_greedy_replicate {i : Nat} (hge : k ≤ i) (hlt : i < k + len) : s[i]? = some m := by
  have hbyte := getElem?_eq_of_lt_greedy (i := i - k) (hk.symm ▸ Nat.sub_lt_left_of_lt_add hge hlt)
  rw [List.getElem?_drop, Nat.add_sub_cancel' hge] at hbyte
  rw [hbyte, List.getElem?_replicate_of_lt (Nat.sub_lt_left_of_lt_add hge hlt)]

/-- An attempt that begins before the first occurrence stops before it too: inside the occurrence every byte is
the one the attempt goes on with. -/
theorem add_greedy_replicate_lt (hr : r < k) (hshort : greedy (List.replicate len m) (s.drop r) < len) :
    r + greedy (List.replicate len m) (s.drop r) < k := by
  by_contra hge
  have hbyte := getElem?_of_greedy_replicate hk (not_lt.mp hge) (by omega)
  rw [← List.getElem?_drop] at hbyte
  refine getElem?_greedy_ne _ _ (by simpa using hshort) hbyte ?_
  exact List.getElem?_replicate_of_lt hshort

/-- The attempts before the first occurrence lead up to it, so it is a restart point (R129). -/
theorem RestartPoint.exists_of_first_replicate (hlen : 0 < len)
    (hfirst : ∀ j, j < k → greedy (List.replicate len m) (s.drop j) < len) {r : Nat} {ms : List Nat}
    (h : RestartPoint (List.replicate len m) s r ms) (hr : r ≤ k) :
    ∃ ms', RestartPoint (List.replicate len m) s k ms' := by
  obtain hlt | rfl := hr.lt_or_eq
  · have hbefore := add_greedy_replicate_lt hk hlt (hfirst r hlt)
    have hinside : k < s.length :=
      (List.getElem?_eq_some_iff.mp (getElem?_of_greedy_replicate hk le_rfl (Nat.lt_add_of_pos_right hlen))).1
    exact (h.next r ms (by simpa using hfirst r hlt) (hbefore.trans hinside)).exists_of_first_replicate
      hlen hfirst hbefore
  · exact ⟨ms, h⟩
termination_by k - r

end

/-- Settles O55: the first occurrence is a restart point, and there the scan succeeds. -/
theorem equalByteMarkerNeverMissed : Obligations.EqualByteMarkerNeverMissed := by
  intro m len k s cap hlen hk hfirst
  obtain ⟨ms, h⟩ := RestartPoint.start.exists_of_first_replicate hk hlen hfirst (Nat.zero_le k)
  obtain ⟨log, -, hok⟩ := h.sync_ok cap (by simpa using hk)
  exact ⟨_, by simpa using hok⟩

end Sys2Proof.Machine

/-! ## The placing of an operation (O29) -/

namespace Sys2Proof

theorem Phase.code_of_ofCode {c : BitVec 3} {p : Phase} (h : Phase.ofCode c = some p) : p.code = c := by
  unfold Phase.ofCode at h
  split_ifs at h <;> cases h <;> exact Eq.symm ‹_›

theorem Ev.code_ofCode : ∀ c : BitVec 2, (Ev.ofCode c).code = c := by
  decide

/-- A selector value whose `PHASE` field is a phase's code is its fields put together again (R101). -/
theorem Selector.bits_of_ofBits {w : OpSel} {f : Selector} (h : Selector.ofBits w = some f) : f.bits = w := by
  obtain ⟨p, hp, rfl⟩ := Option.map_eq_some_iff.mp h
  refine BitVec.eq_of_getLsbD_eq fun i hi => ?_
  rw [Selector.getLsbD_bits, Phase.code_of_ofCode hp, Ev.code_ofCode]
  interval_cases i <;> simp

/-- What the decoder answers is the operation of a row that matches (R102). -/
theorem exists_matches_of_decodeSel {w : OpSel} {i : Instr} (h : decodeSel w = some i) :
    ∃ r ∈ opMap, r.matches w = true ∧ r.instr = i := by
  obtain ⟨r, hfind, hinstr⟩ := Option.map_eq_some_iff.mp h
  exact ⟨r, List.mem_of_find?_eq_some hfind, by simpa using List.find?_some hfind, hinstr⟩

/-- Every row but that of `RESET` tests the whole `PHASE` field, and for a phase's code (R103). -/
theorem opMap_tests_phase : ∀ r ∈ opMap, r.instr ≠ .reset →
    r.mask.extractLsb' 4 3 = 0b111 ∧ (Phase.ofCode (r.pattern.extractLsb' 4 3)).isSome = true := by
  decide

/-- Where the `PHASE` field is a reserved code, only `RESET` can be selected (R103, R105). -/
theorem eq_reset_of_ofBits_eq_none {w : OpSel} {i : Instr} (h : decodeSel w = some i)
    (hw : Selector.ofBits w = none) : i = .reset := by
  obtain ⟨r, hr, hmatches, rfl⟩ := exists_matches_of_decodeSel h
  by_contra hreset
  obtain ⟨hmask, hphase⟩ := opMap_tests_phase r hr hreset
  have hpattern : w &&& r.mask = r.pattern := by simpa [OpRow.matches] using hmatches
  have hfield : r.pattern.extractLsb' 4 3 = w.extractLsb' 4 3 := by
    rw [← hpattern, BitVec.extractLsb'_and, hmask]
    exact BitVec.and_allOnes
  rw [hfield] at hphase
  have hnone : Phase.ofCode (w.extractLsb' 4 3) = none := Option.map_eq_none_iff.mp hw
  simp [hnone] at hphase

/-- Every width of `DIM_BITS` bits holds 0 and 1: the placed frames are legal (R7). -/
theorem fitsBits_dimBits_of_le_one {p : Build} (hp : p.wf = true) {n : Nat} (hn : n ≤ 1) :
    fitsBits n p.dimBits = true := by
  simp only [Build.wf, Bool.and_eq_true] at hp
  obtain ⟨⟨⟨-, hdim⟩, -⟩, -⟩ := hp
  cases hd : p.dimBits with
  | none => rfl
  | some d =>
    have hpos : 1 ≤ d := by simpa [atLeast, hd] using hdim
    exact (fitsBits_some n d).mpr (hn.trans_lt (Nat.one_lt_two_pow (by omega)))

namespace Machine

/-- The step selects `i` and answers a next state. -/
def State.Executes (s : State) (i : Instr) : Prop := s.selected = .ok i ∧ ∃ t, step s = .next t

section
variable {s : State}

@[simp] theorem State.present_input (s : State) (x : In) : (s.present x).input = x := by
  cases henv : s.env <;> simp [State.input, Env.present, henv]

theorem State.Inv.present (h : s.Inv) (x : In) : (s.present x).Inv :=
  ⟨h.codeFits, h.syncing, h.reading, h.display, h.skip, h.failed⟩

/-- An input without `rst` and without a new configuration is in the legal domain, if its answer is. -/
theorem State.running_present (hlegal : s.cfgLegal = true) {x : In} (hrst : x.rst = false)
    (hcfg : x.cfg = none) (hsrc : ∀ a, x.src = some a → a.wf s.build = true) : (s.present x).Running := by
  refine ⟨by simpa using hrst, by simp [State.cfgStable, hcfg], hlegal, ?_⟩
  cases ha : x.src with
  | none => simp [State.srcLegal, ha]
  | some a => simp [State.srcLegal, ha, hsrc a ha]

/-- In a state of the table of R41 the operation that a run-time input selects completes. -/
theorem State.executes_present (hinv : s.Inv) (hlegal : s.cfgLegal = true) {src : Option Answer} {ack : Bool}
    (hsrc : ∀ a, src = some a → a.wf s.build = true) {i : Instr}
    (hdecode : decodeSel (s.present { src := src, ack := ack }).opsel = some i) :
    (s.present { src := src, ack := ack }).Executes i := by
  have hrun := State.running_present hlegal (x := { src := src, ack := ack }) rfl rfl hsrc
  exact ⟨selected_of_running _ i hrun hdecode, runningStepCompletes _ (hinv.present _) (.inr hrun)⟩

/-- A reset is placed in any state (R165). -/
theorem State.executes_present_reset (s : State) : (s.present { rst := true }).Executes .reset := by
  have hrst : (s.present { rst := true }).input.rst = true := by simp
  have hsel := selected_of_decodeSel _ .reset (decodeSel_opsel_eq_reset hrst) (.inl hrst)
  exact ⟨hsel, _, (step_next _ _).mpr ⟨.reset, hsel, (exec_reset_next _ _).mpr ⟨hsel, rfl⟩⟩⟩

theorem State.clear_clean (s : State) : s.clear.Clean := ⟨rfl, rfl, rfl, rfl, rfl, rfl⟩

theorem State.clear_row (s : State) : s.clear.SyncingRow :=
  ((State.Inv.of_clean s.clear_clean).syncing rfl).1

/-- The smallest frame, read completely, is in the row of `READING` (R41). -/
theorem State.onePixelRead_row (s : State) (phase : Phase) : (s.clear.onePixelRead phase).ReadingRow :=
  ⟨rfl, rfl, le_rfl, rfl⟩

/-- The placed answers are such as the interface carries: 0 is a sub-code of any width (R10). -/
theorem State.wf_of_answerFor {p : Build} {ev : Ev} {eq : Bool} {a : Answer}
    (h : s.answerFor ev eq = some a) : a.wf p = true := by
  cases ev with
  | byte => obtain rfl := Option.some_inj.mp h; rfl
  | err => obtain rfl := Option.some_inj.mp h; simp [Answer.wf]
  | none | ack => cases h

variable (hlegal : s.cfgLegal = true)
include hlegal

/-- A placed frame as wide and high as the parameters allow leaves the configuration legal (R6). -/
theorem State.cfgLegal_of_dims {t : State} {w h : Nat} (hw : fitsBits w s.build.dimBits = true)
    (hh : fitsBits h s.build.dimBits = true) (hbuild : t.build = s.build)
    (hcfg : t.cfg = { s.cfg with width := w, height := h }) : t.cfgLegal = true := by
  obtain ⟨hp, hc⟩ := (cfgLegal_iff s).mp hlegal
  obtain ⟨hmlen, hmarker, hmaxl, -, -⟩ := (s.cfg.wf_iff s.build).mp hc
  rw [cfgLegal_iff, hbuild, hcfg]
  exact ⟨hp, (Config.wf_iff _ _).mpr ⟨hmlen, hmarker, hmaxl, hw, hh⟩⟩

theorem State.cfgLegal_onePixel : s.onePixel.cfgLegal = true := by
  have hone := fitsBits_dimBits_of_le_one ((cfgLegal_iff s).mp hlegal).1 le_rfl
  exact State.cfgLegal_of_dims hlegal hone hone rfl rfl

/-- A legal marker has the byte that is expected first (R107). -/
theorem State.exists_expected_clear : ∃ m, s.clear.expected = some m := by
  obtain ⟨-, hc⟩ := (cfgLegal_iff s).mp hlegal
  obtain ⟨hmlen, hmarker, -⟩ := (s.cfg.wf_iff s.build).mp hc
  exact ⟨_, List.getElem?_eq_getElem (show 0 < s.cfg.marker.length by omega)⟩

theorem State.executes_placed_scanDone (ev : Ev) (eq : Bool) :
    (s.placeSelector ⟨false, .syncing, ev, eq, true⟩).Executes .scanDone := by
  obtain ⟨-, hfits, -⟩ := s.clear_row
  have hinv : State.Inv { s.clear with progress := s.markerLen } :=
    .of_syncing rfl ⟨le_rfl, hfits, rfl, rfl⟩ rfl
  exact State.executes_present hinv hlegal (by simp)
    ((decodeSel_opsel_eq_scanDone _).mpr ⟨by simp, rfl, rfl⟩)

/-- At the beginning of a scan the placed answer decides between the four operations (R103). -/
theorem State.executes_placed_scan {ev : Ev} {eq : Bool} {i : Instr}
    (h : decodeSel (⟨false, .syncing, ev, eq, false⟩ : Selector).bits = some i) :
    (s.placeSelector ⟨false, .syncing, ev, eq, false⟩).Executes i := by
  have hlt := markerLen_pos hlegal
  obtain ⟨m, hm⟩ := State.exists_expected_clear hlegal
  refine State.executes_present (.of_clean s.clear_clean) hlegal
    (fun _ => State.wf_of_answerFor) ?_
  rw [decodeSel_bits] at h
  cases ev with
  | none =>
    obtain rfl : .waitScan = i := by simpa using h
    exact decodeSel_opsel_eq_waitScan _ (by simp) rfl hlt (by simp [State.answerFor])
  | byte =>
    cases eq with
    | true =>
      obtain rfl : .scanMatch = i := by simpa using h
      exact decodeSel_opsel_eq_scanMatch _ m (by simp) rfl hlt
        (by simp [State.answerFor, State.byteFor, hm]) hm
    | false =>
      obtain rfl : .scanMiss = i := by simpa using h
      refine decodeSel_opsel_eq_scanMiss (m + 1) (by simp) rfl hlt
        (by simp [State.answerFor, State.byteFor, hm]) ?_
      exact fun heq => by simpa using hm.symm.trans heq
  | err =>
    obtain rfl : .scanFail = i := by simpa using h
    exact decodeSel_opsel_eq_scanFail 0 (by simp) rfl hlt (by simp [State.answerFor])
  | ack => simp at h

theorem State.executes_placed_readDone (ev : Ev) (eq : Bool) :
    (s.placeSelector ⟨false, .reading, ev, eq, true⟩).Executes .readDone :=
  State.executes_present (.of_reading rfl (s.onePixelRead_row .reading) rfl)
    (State.cfgLegal_onePixel (s := s.clear) hlegal) (by simp)
    (decodeSel_opsel_eq_readDone _ (by simp) rfl rfl)

/-- A read is placed at the beginning of a frame that is not empty. -/
theorem State.exists_placed_read (ev : Ev) (eq : Bool) :
    ∃ y : State, y.Clean ∧ y.cfgLegal = true ∧ 0 < y.frameLen ∧
      s.placeSelector ⟨false, .reading, ev, eq, false⟩ =
        { y with phase := .reading }.present { src := s.clear.answerFor ev eq } := by
  have hplaced {y : State} (hy : (if s.clear.frameLen = 0 then s.clear.onePixel else s.clear) = y) :
      s.placeSelector ⟨false, .reading, ev, eq, false⟩ =
        { y with phase := .reading }.present { src := s.clear.answerFor ev eq } := hy ▸ rfl
  by_cases hN : s.clear.frameLen = 0
  · exact ⟨s.clear.onePixel, s.clear_clean, State.cfgLegal_onePixel (s := s.clear) hlegal, one_pos,
      hplaced (if_pos hN)⟩
  · exact ⟨s.clear, s.clear_clean, hlegal, Nat.pos_of_ne_zero hN, hplaced (if_neg hN)⟩

/-- At the beginning of a read the placed answer decides between the three operations (R103). -/
theorem State.executes_placed_read {ev : Ev} {eq : Bool} {i : Instr}
    (h : decodeSel (⟨false, .reading, ev, eq, false⟩ : Selector).bits = some i) :
    (s.placeSelector ⟨false, .reading, ev, eq, false⟩).Executes i := by
  obtain ⟨y, ⟨-, hprogress, hskipped, hcount, hfb, herr⟩, hy, hN, hplaced⟩ :=
    State.exists_placed_read hlegal ev eq
  have hlt : y.count < y.frameLen := hcount ▸ hN
  have hinv : State.Inv { y with phase := .reading } :=
    .of_reading rfl ⟨hprogress, hskipped, hlt.le, by simp [State.filledTo, hcount, hfb]⟩ herr
  rw [hplaced]
  refine State.executes_present hinv hy (fun _ => State.wf_of_answerFor) ?_
  rw [decodeSel_bits] at h
  cases ev with
  | none =>
    obtain rfl : .waitRead = i := by simpa using h
    exact decodeSel_opsel_eq_waitRead (by simp) rfl hlt (by simp [State.answerFor])
  | byte =>
    obtain rfl : .readStore = i := by simpa using h
    exact decodeSel_opsel_eq_readStore _ (s.clear.byteFor eq) (by simp) rfl hlt (by simp [State.answerFor])
  | err =>
    obtain rfl : .readFail = i := by simpa using h
    exact decodeSel_opsel_eq_readFail 0 (by simp) rfl hlt (by simp [State.answerFor])
  | ack => simp at h

/-- Where the smallest frame is presented the placed acknowledgement decides (R103). -/
theorem State.executes_placed_show {ev : Ev} {eq tc : Bool} {i : Instr}
    (h : decodeSel (⟨false, .display, ev, eq, tc⟩ : Selector).bits = some i) :
    (s.placeSelector ⟨false, .display, ev, eq, tc⟩).Executes i := by
  refine State.executes_present (.of_read_complete rfl (s.onePixelRead_row .display) rfl rfl)
    (State.cfgLegal_onePixel (s := s.clear) hlegal) (by simp) ?_
  rw [decodeSel_bits] at h
  cases ev with
  | none =>
    obtain rfl : .waitShow = i := by simpa using h
    exact decodeSel_opsel_eq_waitShow (by simp) rfl (by simp)
  | ack =>
    obtain rfl : .pipeShow = i := by simpa using h
    exact decodeSel_opsel_eq_pipeShow _ (by simp) rfl (by simp)
  | byte | err => simp at h

theorem State.executes_placed_pipeSkip (ev : Ev) (eq tc : Bool) :
    (s.placeSelector ⟨false, .skip, ev, eq, tc⟩).Executes .pipeSkip := by
  obtain ⟨hp, hc⟩ := (cfgLegal_iff s).mp hlegal
  obtain ⟨-, -, -, -, hheight⟩ := (s.cfg.wf_iff s.build).mp hc
  have hzero := fitsBits_dimBits_of_le_one hp zero_le_one
  have hN : 0 = 0 * s.cfg.height := (Nat.zero_mul _).symm
  have hinv : State.Inv { s.clear with cfg := { s.cfg with width := 0 }, phase := .skip } :=
    .of_read_complete (by simp [State.emptyFrame, Config.frameLen]) ⟨rfl, rfl, Nat.zero_le _, rfl⟩ hN rfl
  exact State.executes_present hinv (State.cfgLegal_of_dims hlegal hzero hheight rfl rfl) (by simp)
    (decodeSel_opsel_eq_pipeSkip (by simp) rfl)

theorem State.executes_placed_halt (ev : Ev) (eq tc : Bool) :
    (s.placeSelector ⟨false, .failed, ev, eq, tc⟩).Executes .halt := by
  have hinv : State.Inv { s.clear with phase := .failed, err := { cause := .syncIo, code := 0 } } :=
    .of_failed rfl (Nat.two_pow_pos _) (.inl ⟨rfl, s.clear_row, markerLen_pos hlegal⟩)
  exact State.executes_present hinv hlegal (by simp) (decodeSel_opsel_eq_halt (by simp) rfl)

/-- Placing the fields of an operation makes it execute, whichever phase they name. -/
theorem State.executes_placeSelector {f : Selector} {i : Instr} (h : decodeSel f.bits = some i) :
    (s.placeSelector f).Executes i := by
  obtain ⟨rst, phase, ev, eq, tc⟩ := f
  have hrow := h
  rw [decodeSel_bits] at hrow
  cases rst with
  | true =>
    obtain rfl : .reset = i := by simpa using hrow
    exact s.executes_present_reset
  | false =>
    cases phase with
    | syncing =>
      cases tc with
      | true =>
        obtain rfl : .scanDone = i := by simpa using hrow
        exact State.executes_placed_scanDone hlegal ev eq
      | false => exact State.executes_placed_scan hlegal h
    | reading =>
      cases tc with
      | true =>
        obtain rfl : .readDone = i := by simpa using hrow
        exact State.executes_placed_readDone hlegal ev eq
      | false => exact State.executes_placed_read hlegal h
    | display => exact State.executes_placed_show hlegal h
    | skip =>
      obtain rfl : .pipeSkip = i := by simpa using hrow
      exact State.executes_placed_pipeSkip hlegal ev eq tc
    | failed =>
      obtain rfl : .halt = i := by simpa using hrow
      exact State.executes_placed_halt hlegal ev eq tc

theorem State.executes_placeWord {w : OpSel} {i : Instr} (h : decodeSel w = some i) :
    (s.placeWord w).Executes i := by
  cases hw : Selector.ofBits w with
  | none =>
    obtain rfl := eq_reset_of_ofBits_eq_none h hw
    simpa [State.placeWord, h, hw] using s.executes_present_reset
  | some f =>
    have hf : decodeSel f.bits = some i := by rw [Selector.bits_of_ofBits hw, h]
    simpa [State.placeWord, h, hw] using State.executes_placeSelector hlegal hf

end

theorem State.placeWord_of_reserved (s : State) {w : OpSel} (h : decodeSel w = none) : s.placeWord w = s := by
  simp [State.placeWord, h]

/-- A table word is its selector value (R108). -/
theorem State.withFetchWord_eight (s : State) {w : Nat} (hw : w < 256) :
    s.withFetchWord 8 w = s.placeWord (BitVec.ofNat 8 w) := by
  rw [State.withFetchWord, Nat.mod_eq_of_lt (show w < 2 ^ 8 from hw)]

/-- Settles O29: the placed state is in the table of R41, in the row of the value's `PHASE` field, so the step
selects the operation and completes it. -/
theorem placedWordExecutes : Obligations.PlacedWordExecutes := by
  refine ⟨fun s w i hw hlegal h => ?_, fun s w hw h => ?_⟩
  · rw [decodeTableWord_eight] at h
    rw [State.withFetchWord_eight s hw]
    exact State.executes_placeWord hlegal h
  · rw [decodeTableWord_eight] at h
    rw [State.withFetchWord_eight s hw]
    exact s.placeWord_of_reserved h

end Machine

end Sys2Proof

/-! ## What every step does to the environment and to the buffer, and `RESET` (O15, O22, O33) -/

namespace Sys2Proof.Machine

/-- Settles O22: the environment follows what the operation takes. -/
theorem environmentMovesByOperation : Obligations.EnvironmentMovesByOperation := by
  intro i s t h
  have henv := (movesSurroundings_of_exec_next i s t h).env
  cases i <;> exact henv

/-- What an operation can do to the Frame Buffer: release it, store at `COUNT` below `N`, or leave it alone
(R141, R161, R165). -/
theorem fb_of_exec_next (i : Instr) (s t : State) (h : exec i s = .next t) :
    t.fb = [] ∨ t.frameLen = s.frameLen ∧
      (t.fb = s.fb ∨ s.count < s.frameLen ∧ ∃ b, t.fb = fbWrite s.fb s.count b) := by
  cases i with
  | reset => obtain ⟨-, rfl⟩ := (exec_reset_next s t).mp h; exact .inl rfl
  | pipeShow => obtain ⟨-, bytes, -, rfl⟩ := (exec_pipeShow_next s t).mp h; exact .inl rfl
  | readStore =>
    obtain ⟨-, b, -, hlt, rfl⟩ := (exec_readStore_next s t).mp h
    exact .inr ⟨rfl, .inr ⟨hlt, b, rfl⟩⟩
  | scanMatch => obtain ⟨-, -, rfl⟩ := (exec_scanMatch_next s t).mp h; exact .inr ⟨rfl, .inl rfl⟩
  | scanMiss => obtain ⟨-, b, -, rfl⟩ := (exec_scanMiss_next s t).mp h; exact .inr ⟨rfl, .inl rfl⟩
  | scanDone =>
    obtain ⟨-, rfl⟩ := (exec_scanDone_next s t).mp h
    exact .inr ⟨s.emitLog_frameLen, .inl s.emitLog_fb⟩
  | scanFail => obtain ⟨-, c, -, rfl⟩ := (exec_scanFail_next s t).mp h; exact .inr ⟨rfl, .inl rfl⟩
  | waitScan => obtain ⟨-, rfl⟩ := (exec_waitScan_next s t).mp h; exact .inr ⟨rfl, .inl rfl⟩
  | readDone => obtain ⟨-, rfl⟩ := (exec_readDone_next s t).mp h; exact .inr ⟨rfl, .inl rfl⟩
  | readFail => obtain ⟨-, c, -, rfl⟩ := (exec_readFail_next s t).mp h; exact .inr ⟨rfl, .inl rfl⟩
  | waitRead => obtain ⟨-, rfl⟩ := (exec_waitRead_next s t).mp h; exact .inr ⟨rfl, .inl rfl⟩
  | waitShow => obtain ⟨-, rfl⟩ := (exec_waitShow_next s t).mp h; exact .inr ⟨rfl, .inl rfl⟩
  | pipeSkip => obtain ⟨-, rfl⟩ := (exec_pipeSkip_next s t).mp h; exact .inr ⟨rfl, .inl rfl⟩
  | halt => obtain ⟨-, rfl⟩ := (exec_halt_next s t).mp h; exact .inr ⟨rfl, .inl rfl⟩

/-- Settles O33: an empty buffer has the form under any configuration, and a store below `N` keeps it. -/
theorem everyStepKeepsBufferForm : Obligations.EveryStepKeepsBufferForm := by
  intro s t hwf hstep
  obtain ⟨i, -, hexec⟩ := (step_next s t).mp hstep
  obtain hempty | ⟨hN, hsame | ⟨hlt, b, hstore⟩⟩ := fb_of_exec_next i s t hexec
  · rw [hempty, Memory.wf_nil]
  · rwa [hN, hsame]
  · rw [hN, hstore]
    exact Memory.wf_fbWrite s.frameLen s.fb s.count b hlt hwf

/-- Settles O15: `RST` alone decides the selector, and no objection is looked at. -/
theorem resetRestoresInitialState : Obligations.ResetRestoresInitialState := by
  intro s hrst
  have hdecode := decodeSel_opsel_eq_reset hrst
  have hsel := selected_of_decodeSel s .reset hdecode (.inl hrst)
  exact ⟨hdecode, rfl, stepRunsSelectedOperation s .reset hdecode (.inl hrst), _,
    (exec_reset_next s _).mpr ⟨hsel, rfl⟩, rfl⟩

end Sys2Proof.Machine
